-- ==== Sys2Proof/Word.lean ====
section
/-! DEFINITION. The word types of XT-CORE (`spec/00_scope.md` R5, R13): a 32-bit word for registers, addresses held in
registers and instruction words, an 8-bit byte for memory cells, a 64-bit value for the widened arithmetic. Every one is a
bare pattern of bits; an operation that reads a pattern as signed says so. -/

namespace Sys2Proof

/-- A 32-bit pattern: a register, an instruction word (R5, R13). -/
abbrev Word := BitVec 32

/-- One byte of RAM (R5, R32). -/
abbrev Byte := BitVec 8

/-- A 64-bit pattern: the widened sum of the data-processing unit, the result of a long multiply (R173, R260). -/
abbrev DWord := BitVec 64

end Sys2Proof
end

