-- ==== Sys2Proof/Syntax.lean ====
section
/-! DEFINITION. The instruction syntax of XT-CORE: one constructor of `Instr` for each of the 103 rows of
`spec/opcode_table.json`, in the table's order, and the small types its operands are made of. Fields that no unit reads
(`spec/30_encoding.md` R105) are operands too, so that an instruction determines its word. -/

namespace Sys2Proof

/-- A register number, 0 to 15; 15 is the program counter (`spec/10_state.md` R20, R23). -/
abbrev Reg := Fin 16

/-- The sixteen condition codes, in code order (`spec/40_condition.md` R131). -/
inductive Cond where
  | eq | ne | cs | cc | mi | pl | vs | vc | hi | ls | ge | lt | gt | le | al | nv
deriving DecidableEq, Repr

/-- The four shift modes, in code order (`spec/30_encoding.md` R95). -/
inductive ShiftMode where
  | lsl | lsr | asr | ror
deriving DecidableEq, Repr

/-- The sixteen data-processing opcodes, in code order (`spec/30_encoding.md` R91). -/
inductive DpOp where
  | and | eor | sub | rsb | add | adc | sbc | rsc | tst | teq | cmp | cmn | orr | mov | bic | mvn
deriving DecidableEq, Repr

/-- The 18 category tags of the classifier (`spec/30_encoding.md` R96). -/
inductive Category where
  | dataProcessing | multiply | longMultiply | singleDataSwap | singleDataTransfer | halfWordTransferImmediate
  | halfWordTransferRegister | blockDataTransfer | branch | branchExchange | mrs | msr | msrFlags | coprocDataTransfer
  | coprocDataOperation | coprocRegisterTransfer | softwareInterrupt | undefined
deriving DecidableEq, Repr

/-- Operand 2, immediate form: an 8-bit value and a rotation count in steps of two bits (R92). -/
structure RotImm where
  rot : BitVec 4
  imm8 : BitVec 8
deriving DecidableEq, Repr

/-- A register shifted by an immediate amount (R93; the register offset of a transfer, R98). -/
structure ShiftImm where
  amount : BitVec 5
  mode : ShiftMode
  rm : Reg
deriving DecidableEq, Repr

/-- Operand 2, a register shifted by the low byte of another; `bit7` is `w[7]`, which no unit examines (R94). -/
structure ShiftReg where
  rs : Reg
  bit7 : Bool
  mode : ShiftMode
  rm : Reg
deriving DecidableEq, Repr

/-- The indexing bits of a transfer: `p` pre-indexed, `u` up, `w` write-back (R97). -/
structure Indexing where
  p : Bool
  u : Bool
  w : Bool
deriving DecidableEq, Repr

/-- The instructions: one constructor for each row of `spec/opcode_table.json`, in its order. `c` is the condition,
`sf` the "set condition codes" bit `S`. -/
inductive Instr where
  /-- Row 1, BX, format BranchExchange (R286). -/
  | bx (c : Cond) (rn : Reg)
  /-- Row 2, MRS, format MRS (R294). -/
  | mrs (c : Cond) (ps : Bool) (rd : Reg)
  /-- Row 3, MSR, format MSR (R295). -/
  | msr (c : Cond) (pd : Bool) (rm : Reg)
  /-- Row 4, SWP, format SingleDataSwap (R284). -/
  | swp (c : Cond) (rn rd rm : Reg)
  /-- Row 5, SWPB, format SingleDataSwap (R285). -/
  | swpb (c : Cond) (rn rd rm : Reg)
  /-- Row 6, MSR_FLAGS, format MSRFlags (R302). -/
  | msrFlags (c : Cond) (im pd : Bool) (operand : BitVec 12)
  /-- Row 7, STRH, format HalfWordTransferRegister (R287). -/
  | strhReg (c : Cond) (ix : Indexing) (rn rd rm : Reg)
  /-- Row 8, LDRH, format HalfWordTransferRegister (R288). -/
  | ldrhReg (c : Cond) (ix : Indexing) (rn rd rm : Reg)
  /-- Row 9, LDRSB, format HalfWordTransferRegister (R289). -/
  | ldrsbReg (c : Cond) (ix : Indexing) (rn rd rm : Reg)
  /-- Row 10, LDRSH, format HalfWordTransferRegister (R290). -/
  | ldrshReg (c : Cond) (ix : Indexing) (rn rd rm : Reg)
  /-- Row 11, HWRESERVED, format HalfWordTransferRegister (R291). -/
  | hwReservedRegSh2 (c : Cond) (ix : Indexing) (rn rd rm : Reg)
  /-- Row 12, HWRESERVED, format HalfWordTransferRegister (R291). -/
  | hwReservedRegSh3 (c : Cond) (ix : Indexing) (rn rd rm : Reg)
  /-- Row 13, MUL, format Multiply (R281). -/
  | mul (c : Cond) (sf : Bool) (rd rn rs rm : Reg)
  /-- Row 14, MLA, format Multiply (R282). -/
  | mla (c : Cond) (sf : Bool) (rd rn rs rm : Reg)
  /-- Row 15, UMULL, format LongMultiply (R267). -/
  | umull (c : Cond) (sf : Bool) (rdHi rdLo rs rm : Reg)
  /-- Row 16, UMLAL, format LongMultiply (R268). -/
  | umlal (c : Cond) (sf : Bool) (rdHi rdLo rs rm : Reg)
  /-- Row 17, SMULL, format LongMultiply (R269). -/
  | smull (c : Cond) (sf : Bool) (rdHi rdLo rs rm : Reg)
  /-- Row 18, SMLAL, format LongMultiply (R270). -/
  | smlal (c : Cond) (sf : Bool) (rdHi rdLo rs rm : Reg)
  /-- Row 19, STRH, format HalfWordTransferImmediate (R287). -/
  | strhImm (c : Cond) (ix : Indexing) (rn rd : Reg) (offHi offLo : BitVec 4)
  /-- Row 20, LDRH, format HalfWordTransferImmediate (R288). -/
  | ldrhImm (c : Cond) (ix : Indexing) (rn rd : Reg) (offHi offLo : BitVec 4)
  /-- Row 21, LDRSB, format HalfWordTransferImmediate (R289). -/
  | ldrsbImm (c : Cond) (ix : Indexing) (rn rd : Reg) (offHi offLo : BitVec 4)
  /-- Row 22, LDRSH, format HalfWordTransferImmediate (R290). -/
  | ldrshImm (c : Cond) (ix : Indexing) (rn rd : Reg) (offHi offLo : BitVec 4)
  /-- Row 23, HWRESERVED, format HalfWordTransferImmediate (R291). -/
  | hwReservedImmSh2 (c : Cond) (ix : Indexing) (rn rd : Reg) (offHi offLo : BitVec 4)
  /-- Row 24, HWRESERVED, format HalfWordTransferImmediate (R291). -/
  | hwReservedImmSh3 (c : Cond) (ix : Indexing) (rn rd : Reg) (offHi offLo : BitVec 4)
  /-- Row 25, CDP, format CoprocDataOperation (R298). -/
  | cdp (c : Cond) (opc crn crd cpNum : BitVec 4) (cp : BitVec 3) (crm : BitVec 4)
  /-- Row 26, MRC, format CoprocRegisterTransfer (R299). -/
  | mrc (c : Cond) (opc : BitVec 3) (crn : BitVec 4) (rd : Reg) (cpNum : BitVec 4) (cp : BitVec 3) (crm : BitVec 4)
  /-- Row 27, MCR, format CoprocRegisterTransfer (R300). -/
  | mcr (c : Cond) (opc : BitVec 3) (crn : BitVec 4) (rd : Reg) (cpNum : BitVec 4) (cp : BitVec 3) (crm : BitVec 4)
  /-- Row 28, UNDEFINED, format Undefined (R303). -/
  | undefined (c : Cond) (xHi : BitVec 20) (xLo : BitVec 4)
  /-- Row 29, SWI, format SoftwareInterrupt (R301). -/
  | swi (c : Cond) (comment : BitVec 24)
  /-- Row 30, LDM, format BlockDataTransfer (R292). -/
  | ldm (c : Cond) (ix : Indexing) (psr : Bool) (rn : Reg) (regList : BitVec 16)
  /-- Row 31, STM, format BlockDataTransfer (R293). -/
  | stm (c : Cond) (ix : Indexing) (psr : Bool) (rn : Reg) (regList : BitVec 16)
  /-- Row 32, B, format Branch (R253). -/
  | b (c : Cond) (imm24 : BitVec 24)
  /-- Row 33, BL, format Branch (R254). -/
  | bl (c : Cond) (imm24 : BitVec 24)
  /-- Row 34, LDC, format CoprocDataTransfer (R296). -/
  | ldc (c : Cond) (ix : Indexing) (nbit : Bool) (rn : Reg) (crd cpNum : BitVec 4) (offset8 : BitVec 8)
  /-- Row 35, STC, format CoprocDataTransfer (R297). -/
  | stc (c : Cond) (ix : Indexing) (nbit : Bool) (rn : Reg) (crd cpNum : BitVec 4) (offset8 : BitVec 8)
  /-- Row 36, LDR, format SingleDataTransfer-immediate-offset (R225). -/
  | ldrImm (c : Cond) (ix : Indexing) (rn rd : Reg) (imm12 : BitVec 12)
  /-- Row 37, LDR, format SingleDataTransfer-register-offset (R225). -/
  | ldrReg (c : Cond) (ix : Indexing) (rn rd : Reg) (o : ShiftImm)
  /-- Row 38, STR, format SingleDataTransfer-immediate-offset (R226). -/
  | strImm (c : Cond) (ix : Indexing) (rn rd : Reg) (imm12 : BitVec 12)
  /-- Row 39, STR, format SingleDataTransfer-register-offset (R226). -/
  | strReg (c : Cond) (ix : Indexing) (rn rd : Reg) (o : ShiftImm)
  /-- Row 40, LDRB, format SingleDataTransfer-immediate-offset (R227). -/
  | ldrbImm (c : Cond) (ix : Indexing) (rn rd : Reg) (imm12 : BitVec 12)
  /-- Row 41, LDRB, format SingleDataTransfer-register-offset (R227). -/
  | ldrbReg (c : Cond) (ix : Indexing) (rn rd : Reg) (o : ShiftImm)
  /-- Row 42, STRB, format SingleDataTransfer-immediate-offset (R228). -/
  | strbImm (c : Cond) (ix : Indexing) (rn rd : Reg) (imm12 : BitVec 12)
  /-- Row 43, STRB, format SingleDataTransfer-register-offset (R228). -/
  | strbReg (c : Cond) (ix : Indexing) (rn rd : Reg) (o : ShiftImm)
  /-- Row 44, AND, format DataProcessing-immediate (R174). -/
  | andImm (c : Cond) (sf : Bool) (rn rd : Reg) (o : RotImm)
  /-- Row 45, AND, format DataProcessing-register-immediate-shift (R174). -/
  | andShiftImm (c : Cond) (sf : Bool) (rn rd : Reg) (o : ShiftImm)
  /-- Row 46, AND, format DataProcessing-register-register-shift (R174). -/
  | andShiftReg (c : Cond) (sf : Bool) (rn rd : Reg) (o : ShiftReg)
  /-- Row 47, EOR, format DataProcessing-immediate (R175). -/
  | eorImm (c : Cond) (sf : Bool) (rn rd : Reg) (o : RotImm)
  /-- Row 48, EOR, format DataProcessing-register-immediate-shift (R175). -/
  | eorShiftImm (c : Cond) (sf : Bool) (rn rd : Reg) (o : ShiftImm)
  /-- Row 49, EOR, format DataProcessing-register-register-shift (R175). -/
  | eorShiftReg (c : Cond) (sf : Bool) (rn rd : Reg) (o : ShiftReg)
  /-- Row 50, SUB, format DataProcessing-immediate (R176). -/
  | subImm (c : Cond) (sf : Bool) (rn rd : Reg) (o : RotImm)
  /-- Row 51, SUB, format DataProcessing-register-immediate-shift (R176). -/
  | subShiftImm (c : Cond) (sf : Bool) (rn rd : Reg) (o : ShiftImm)
  /-- Row 52, SUB, format DataProcessing-register-register-shift (R176). -/
  | subShiftReg (c : Cond) (sf : Bool) (rn rd : Reg) (o : ShiftReg)
  /-- Row 53, RSB, format DataProcessing-immediate (R177). -/
  | rsbImm (c : Cond) (sf : Bool) (rn rd : Reg) (o : RotImm)
  /-- Row 54, RSB, format DataProcessing-register-immediate-shift (R177). -/
  | rsbShiftImm (c : Cond) (sf : Bool) (rn rd : Reg) (o : ShiftImm)
  /-- Row 55, RSB, format DataProcessing-register-register-shift (R177). -/
  | rsbShiftReg (c : Cond) (sf : Bool) (rn rd : Reg) (o : ShiftReg)
  /-- Row 56, ADD, format DataProcessing-immediate (R178). -/
  | addImm (c : Cond) (sf : Bool) (rn rd : Reg) (o : RotImm)
  /-- Row 57, ADD, format DataProcessing-register-immediate-shift (R178). -/
  | addShiftImm (c : Cond) (sf : Bool) (rn rd : Reg) (o : ShiftImm)
  /-- Row 58, ADD, format DataProcessing-register-register-shift (R178). -/
  | addShiftReg (c : Cond) (sf : Bool) (rn rd : Reg) (o : ShiftReg)
  /-- Row 59, ADC, format DataProcessing-immediate (R179). -/
  | adcImm (c : Cond) (sf : Bool) (rn rd : Reg) (o : RotImm)
  /-- Row 60, ADC, format DataProcessing-register-immediate-shift (R179). -/
  | adcShiftImm (c : Cond) (sf : Bool) (rn rd : Reg) (o : ShiftImm)
  /-- Row 61, ADC, format DataProcessing-register-register-shift (R179). -/
  | adcShiftReg (c : Cond) (sf : Bool) (rn rd : Reg) (o : ShiftReg)
  /-- Row 62, SBC, format DataProcessing-immediate (R180). -/
  | sbcImm (c : Cond) (sf : Bool) (rn rd : Reg) (o : RotImm)
  /-- Row 63, SBC, format DataProcessing-register-immediate-shift (R180). -/
  | sbcShiftImm (c : Cond) (sf : Bool) (rn rd : Reg) (o : ShiftImm)
  /-- Row 64, SBC, format DataProcessing-register-register-shift (R180). -/
  | sbcShiftReg (c : Cond) (sf : Bool) (rn rd : Reg) (o : ShiftReg)
  /-- Row 65, RSC, format DataProcessing-immediate (R181). -/
  | rscImm (c : Cond) (sf : Bool) (rn rd : Reg) (o : RotImm)
  /-- Row 66, RSC, format DataProcessing-register-immediate-shift (R181). -/
  | rscShiftImm (c : Cond) (sf : Bool) (rn rd : Reg) (o : ShiftImm)
  /-- Row 67, RSC, format DataProcessing-register-register-shift (R181). -/
  | rscShiftReg (c : Cond) (sf : Bool) (rn rd : Reg) (o : ShiftReg)
  /-- Row 68, TST, format DataProcessing-immediate (R182). -/
  | tstImm (c : Cond) (rn rd : Reg) (o : RotImm)
  /-- Row 69, TST_S0, format DataProcessing-immediate (R190). -/
  | tstS0Imm (c : Cond) (rn rd : Reg) (o : RotImm)
  /-- Row 70, TST, format DataProcessing-register-immediate-shift (R182). -/
  | tstShiftImm (c : Cond) (rn rd : Reg) (o : ShiftImm)
  /-- Row 71, TST_S0, format DataProcessing-register-immediate-shift (R190). -/
  | tstS0ShiftImm (c : Cond) (rn rd : Reg) (o : ShiftImm)
  /-- Row 72, TST, format DataProcessing-register-register-shift (R182). -/
  | tstShiftReg (c : Cond) (rn rd : Reg) (o : ShiftReg)
  /-- Row 73, TST_S0, format DataProcessing-register-register-shift (R190). -/
  | tstS0ShiftReg (c : Cond) (rn rd : Reg) (o : ShiftReg)
  /-- Row 74, TEQ, format DataProcessing-immediate (R183). -/
  | teqImm (c : Cond) (rn rd : Reg) (o : RotImm)
  /-- Row 75, TEQ_S0, format DataProcessing-immediate (R190). -/
  | teqS0Imm (c : Cond) (rn rd : Reg) (o : RotImm)
  /-- Row 76, TEQ, format DataProcessing-register-immediate-shift (R183). -/
  | teqShiftImm (c : Cond) (rn rd : Reg) (o : ShiftImm)
  /-- Row 77, TEQ_S0, format DataProcessing-register-immediate-shift (R190). -/
  | teqS0ShiftImm (c : Cond) (rn rd : Reg) (o : ShiftImm)
  /-- Row 78, TEQ, format DataProcessing-register-register-shift (R183). -/
  | teqShiftReg (c : Cond) (rn rd : Reg) (o : ShiftReg)
  /-- Row 79, TEQ_S0, format DataProcessing-register-register-shift (R190). -/
  | teqS0ShiftReg (c : Cond) (rn rd : Reg) (o : ShiftReg)
  /-- Row 80, CMP, format DataProcessing-immediate (R184). -/
  | cmpImm (c : Cond) (rn rd : Reg) (o : RotImm)
  /-- Row 81, CMP_S0, format DataProcessing-immediate (R190). -/
  | cmpS0Imm (c : Cond) (rn rd : Reg) (o : RotImm)
  /-- Row 82, CMP, format DataProcessing-register-immediate-shift (R184). -/
  | cmpShiftImm (c : Cond) (rn rd : Reg) (o : ShiftImm)
  /-- Row 83, CMP_S0, format DataProcessing-register-immediate-shift (R190). -/
  | cmpS0ShiftImm (c : Cond) (rn rd : Reg) (o : ShiftImm)
  /-- Row 84, CMP, format DataProcessing-register-register-shift (R184). -/
  | cmpShiftReg (c : Cond) (rn rd : Reg) (o : ShiftReg)
  /-- Row 85, CMP_S0, format DataProcessing-register-register-shift (R190). -/
  | cmpS0ShiftReg (c : Cond) (rn rd : Reg) (o : ShiftReg)
  /-- Row 86, CMN, format DataProcessing-immediate (R185). -/
  | cmnImm (c : Cond) (rn rd : Reg) (o : RotImm)
  /-- Row 87, CMN_S0, format DataProcessing-immediate (R190). -/
  | cmnS0Imm (c : Cond) (rn rd : Reg) (o : RotImm)
  /-- Row 88, CMN, format DataProcessing-register-immediate-shift (R185). -/
  | cmnShiftImm (c : Cond) (rn rd : Reg) (o : ShiftImm)
  /-- Row 89, CMN_S0, format DataProcessing-register-immediate-shift (R190). -/
  | cmnS0ShiftImm (c : Cond) (rn rd : Reg) (o : ShiftImm)
  /-- Row 90, CMN, format DataProcessing-register-register-shift (R185). -/
  | cmnShiftReg (c : Cond) (rn rd : Reg) (o : ShiftReg)
  /-- Row 91, CMN_S0, format DataProcessing-register-register-shift (R190). -/
  | cmnS0ShiftReg (c : Cond) (rn rd : Reg) (o : ShiftReg)
  /-- Row 92, ORR, format DataProcessing-immediate (R186). -/
  | orrImm (c : Cond) (sf : Bool) (rn rd : Reg) (o : RotImm)
  /-- Row 93, ORR, format DataProcessing-register-immediate-shift (R186). -/
  | orrShiftImm (c : Cond) (sf : Bool) (rn rd : Reg) (o : ShiftImm)
  /-- Row 94, ORR, format DataProcessing-register-register-shift (R186). -/
  | orrShiftReg (c : Cond) (sf : Bool) (rn rd : Reg) (o : ShiftReg)
  /-- Row 95, MOV, format DataProcessing-immediate (R187). -/
  | movImm (c : Cond) (sf : Bool) (rn rd : Reg) (o : RotImm)
  /-- Row 96, MOV, format DataProcessing-register-immediate-shift (R187). -/
  | movShiftImm (c : Cond) (sf : Bool) (rn rd : Reg) (o : ShiftImm)
  /-- Row 97, MOV, format DataProcessing-register-register-shift (R187). -/
  | movShiftReg (c : Cond) (sf : Bool) (rn rd : Reg) (o : ShiftReg)
  /-- Row 98, BIC, format DataProcessing-immediate (R188). -/
  | bicImm (c : Cond) (sf : Bool) (rn rd : Reg) (o : RotImm)
  /-- Row 99, BIC, format DataProcessing-register-immediate-shift (R188). -/
  | bicShiftImm (c : Cond) (sf : Bool) (rn rd : Reg) (o : ShiftImm)
  /-- Row 100, BIC, format DataProcessing-register-register-shift (R188). -/
  | bicShiftReg (c : Cond) (sf : Bool) (rn rd : Reg) (o : ShiftReg)
  /-- Row 101, MVN, format DataProcessing-immediate (R189). -/
  | mvnImm (c : Cond) (sf : Bool) (rn rd : Reg) (o : RotImm)
  /-- Row 102, MVN, format DataProcessing-register-immediate-shift (R189). -/
  | mvnShiftImm (c : Cond) (sf : Bool) (rn rd : Reg) (o : ShiftImm)
  /-- Row 103, MVN, format DataProcessing-register-register-shift (R189). -/
  | mvnShiftReg (c : Cond) (sf : Bool) (rn rd : Reg) (o : ShiftReg)
deriving DecidableEq, Repr

end Sys2Proof
end

