-- ==== Sys2Proof/WellFormed.lean ====
section
/-! DEFINITION. Which terms of `Instr` are instructions. The fields' types already bound every field; what is left is the
priority of the classifier's rows (`spec/30_encoding.md` R84), where two rows overlap (R87): a data-processing term whose word
a more specific row claims (Multiply, LongMultiply, SingleDataSwap, the halfword rows, MRS, MSR, MSRFlags, BranchExchange) is
no data-processing instruction, and a halfword term whose word MSRFlags claims is no halfword transfer. The other overlaps of
R87 (Undefined with SingleDataTransfer, the halfword rows of one category among themselves) leave no term out, since the
operands of a transfer cannot form an Undefined word. All other terms are instructions (R104 (c), R255, R272). -/

namespace Sys2Proof

/-- `w[22]`, which is bit 1 of the opcode field `w[24:21]` (R91). -/
def DpOp.bit1 : DpOp → Bool
  | .and | .eor | .add | .adc | .tst | .teq | .orr | .mov => false
  | .sub | .rsb | .sbc | .rsc | .cmp | .cmn | .bic | .mvn => true

/-- The word lies in row 5 of R85, Multiply: `w[25:22] = 0000` and `w[7:4] = 1001`. -/
def ShiftReg.claimedByMultiply (op : DpOp) (o : ShiftReg) : Bool :=
  o.bit7 && o.mode == .lsl && (op == .and || op == .eor)

/-- The word lies in row 6 of R85, LongMultiply: `w[25:23] = 001` and `w[7:4] = 1001`. -/
def ShiftReg.claimedByLongMultiply (op : DpOp) (o : ShiftReg) : Bool :=
  o.bit7 && o.mode == .lsl && (op == .add || op == .adc || op == .sbc || op == .rsc)

/-- The word lies in row 7 of R85, SingleDataSwap: `w[27:23] = 00010`, `w[21:20] = 00`, `w[11:4] = 0x09`. -/
def ShiftReg.claimedBySwap (op : DpOp) (sf : Bool) (o : ShiftReg) : Bool :=
  o.bit7 && o.mode == .lsl && (op == .tst || op == .cmp) && !sf && o.rs == 0

/-- The word lies in rows 8 to 11 of R85, the halfword transfers: `w[7] = w[4] = 1`, `w[6:5] != 00`, and `w[22] = 1` or
`w[11:8] = 0`. -/
def ShiftReg.claimedByHalfword (op : DpOp) (o : ShiftReg) : Bool :=
  o.bit7 && o.mode != .lsl && (op.bit1 || o.rs == 0)

/-- No row of R85 above DataProcessing that has `w[7] = 1` claims the register-shifted word (R94, R104 (a)). -/
def ShiftReg.unclaimed (op : DpOp) (sf : Bool) (o : ShiftReg) : Bool :=
  !(o.claimedByMultiply op || o.claimedByLongMultiply op || o.claimedBySwap op sf || o.claimedByHalfword op)

/-- The `S = 0` word of TST or CMP lies in row 2 of R85, MRS. -/
def ShiftImm.claimedByMrs (rn : Reg) (o : ShiftImm) : Bool :=
  rn == 15 && o.amount == 0 && o.mode == .lsl && o.rm == 0

/-- The `S = 0` word of TEQ or CMN lies in row 3 of R85, MSR. -/
def ShiftImm.claimedByMsr (rn rd : Reg) (o : ShiftImm) : Bool :=
  rn == 9 && rd == 15 && o.amount == 0 && o.mode == .lsl

/-- The `S = 0` word of TEQ or CMN, of any operand form, lies in row 4 of R85, MSRFlags. -/
def claimedByMsrFlags (rn rd : Reg) : Bool := rn == 8 && rd == 15

/-- The `L = 0` halfword word lies in row 4 of R85, MSRFlags: `w[24:23] = 10` and `w[21:12] = 0x28F` (R87: "MSRFlags (14 bits)
overlaps the four halfword entries (11 or 7 bits) and wins"). -/
def Indexing.claimedByMsrFlags (ix : Indexing) (rn rd : Reg) : Bool :=
  ix.p && !ix.u && ix.w && Sys2Proof.claimedByMsrFlags rn rd

/-- The `S = 0` word of TEQ lies in row 1 of R85, BranchExchange. -/
def ShiftReg.claimedByBx (rn rd : Reg) (o : ShiftReg) : Bool :=
  rn == 15 && rd == 15 && o.rs == 15 && !o.bit7 && o.mode == .lsl

/-- The term is an instruction: no row of R85 with priority over its own claims its word. -/
def Instr.wf : Instr → Bool
  | .bx _ _ => true
  | .mrs _ _ _ => true
  | .msr _ _ _ => true
  | .swp _ _ _ _ => true
  | .swpb _ _ _ _ => true
  | .msrFlags _ _ _ _ => true
  | .strhReg _ ix rn rd _ => !ix.claimedByMsrFlags rn rd
  | .ldrhReg _ _ _ _ _ => true
  | .ldrsbReg _ _ _ _ _ => true
  | .ldrshReg _ _ _ _ _ => true
  | .hwReservedRegSh2 _ ix rn rd _ => !ix.claimedByMsrFlags rn rd
  | .hwReservedRegSh3 _ ix rn rd _ => !ix.claimedByMsrFlags rn rd
  | .mul _ _ _ _ _ _ => true
  | .mla _ _ _ _ _ _ => true
  | .umull _ _ _ _ _ _ => true
  | .umlal _ _ _ _ _ _ => true
  | .smull _ _ _ _ _ _ => true
  | .smlal _ _ _ _ _ _ => true
  | .strhImm _ ix rn rd _ _ => !ix.claimedByMsrFlags rn rd
  | .ldrhImm _ _ _ _ _ _ => true
  | .ldrsbImm _ _ _ _ _ _ => true
  | .ldrshImm _ _ _ _ _ _ => true
  | .hwReservedImmSh2 _ ix rn rd _ _ => !ix.claimedByMsrFlags rn rd
  | .hwReservedImmSh3 _ ix rn rd _ _ => !ix.claimedByMsrFlags rn rd
  | .cdp _ _ _ _ _ _ _ => true
  | .mrc _ _ _ _ _ _ _ => true
  | .mcr _ _ _ _ _ _ _ => true
  | .undefined _ _ _ => true
  | .swi _ _ => true
  | .ldm _ _ _ _ _ => true
  | .stm _ _ _ _ _ => true
  | .b _ _ => true
  | .bl _ _ => true
  | .ldc _ _ _ _ _ _ _ => true
  | .stc _ _ _ _ _ _ _ => true
  | .ldrImm _ _ _ _ _ => true
  | .ldrReg _ _ _ _ _ => true
  | .strImm _ _ _ _ _ => true
  | .strReg _ _ _ _ _ => true
  | .ldrbImm _ _ _ _ _ => true
  | .ldrbReg _ _ _ _ _ => true
  | .strbImm _ _ _ _ _ => true
  | .strbReg _ _ _ _ _ => true
  | .andImm _ _ _ _ _ => true
  | .andShiftImm _ _ _ _ _ => true
  | .andShiftReg _ sf _ _ o => o.unclaimed .and sf
  | .eorImm _ _ _ _ _ => true
  | .eorShiftImm _ _ _ _ _ => true
  | .eorShiftReg _ sf _ _ o => o.unclaimed .eor sf
  | .subImm _ _ _ _ _ => true
  | .subShiftImm _ _ _ _ _ => true
  | .subShiftReg _ sf _ _ o => o.unclaimed .sub sf
  | .rsbImm _ _ _ _ _ => true
  | .rsbShiftImm _ _ _ _ _ => true
  | .rsbShiftReg _ sf _ _ o => o.unclaimed .rsb sf
  | .addImm _ _ _ _ _ => true
  | .addShiftImm _ _ _ _ _ => true
  | .addShiftReg _ sf _ _ o => o.unclaimed .add sf
  | .adcImm _ _ _ _ _ => true
  | .adcShiftImm _ _ _ _ _ => true
  | .adcShiftReg _ sf _ _ o => o.unclaimed .adc sf
  | .sbcImm _ _ _ _ _ => true
  | .sbcShiftImm _ _ _ _ _ => true
  | .sbcShiftReg _ sf _ _ o => o.unclaimed .sbc sf
  | .rscImm _ _ _ _ _ => true
  | .rscShiftImm _ _ _ _ _ => true
  | .rscShiftReg _ sf _ _ o => o.unclaimed .rsc sf
  | .tstImm _ _ _ _ => true
  | .tstS0Imm _ _ _ _ => true
  | .tstShiftImm _ _ _ _ => true
  | .tstS0ShiftImm _ rn _ o => !o.claimedByMrs rn
  | .tstShiftReg _ _ _ o => o.unclaimed .tst true
  | .tstS0ShiftReg _ _ _ o => o.unclaimed .tst false
  | .teqImm _ _ _ _ => true
  | .teqS0Imm _ rn rd _ => !claimedByMsrFlags rn rd
  | .teqShiftImm _ _ _ _ => true
  | .teqS0ShiftImm _ rn rd o => !claimedByMsrFlags rn rd && !o.claimedByMsr rn rd
  | .teqShiftReg _ _ _ o => o.unclaimed .teq true
  | .teqS0ShiftReg _ rn rd o => o.unclaimed .teq false && !claimedByMsrFlags rn rd && !o.claimedByBx rn rd
  | .cmpImm _ _ _ _ => true
  | .cmpS0Imm _ _ _ _ => true
  | .cmpShiftImm _ _ _ _ => true
  | .cmpS0ShiftImm _ rn _ o => !o.claimedByMrs rn
  | .cmpShiftReg _ _ _ o => o.unclaimed .cmp true
  | .cmpS0ShiftReg _ _ _ o => o.unclaimed .cmp false
  | .cmnImm _ _ _ _ => true
  | .cmnS0Imm _ rn rd _ => !claimedByMsrFlags rn rd
  | .cmnShiftImm _ _ _ _ => true
  | .cmnS0ShiftImm _ rn rd o => !claimedByMsrFlags rn rd && !o.claimedByMsr rn rd
  | .cmnShiftReg _ _ _ o => o.unclaimed .cmn true
  | .cmnS0ShiftReg _ rn rd o => o.unclaimed .cmn false && !claimedByMsrFlags rn rd
  | .orrImm _ _ _ _ _ => true
  | .orrShiftImm _ _ _ _ _ => true
  | .orrShiftReg _ sf _ _ o => o.unclaimed .orr sf
  | .movImm _ _ _ _ _ => true
  | .movShiftImm _ _ _ _ _ => true
  | .movShiftReg _ sf _ _ o => o.unclaimed .mov sf
  | .bicImm _ _ _ _ _ => true
  | .bicShiftImm _ _ _ _ _ => true
  | .bicShiftReg _ sf _ _ o => o.unclaimed .bic sf
  | .mvnImm _ _ _ _ _ => true
  | .mvnShiftImm _ _ _ _ _ => true
  | .mvnShiftReg _ sf _ _ o => o.unclaimed .mvn sf

end Sys2Proof
end

