-- ==== Sys2Proof/Decode.lean ====
section
/-! DEFINITION. From words to instructions and back (`spec/30_encoding.md`). The bit-field view (R81), the numbering of
conditions, shift modes and opcodes (R131, R95, R91), the classifier as the table walk of R83 and as the decision procedure
of R89, the decoder (total on every 32-bit word, R88; on bytes it rejects only a string shorter than four bytes), the
encoder, and the condition and category of an instruction. -/

namespace Sys2Proof

/-! ## The bit-field view (R81, R11) -/

/-- `w[i]`, one bit. -/
def bitAt (w : Word) (i : Nat) : Bool := w.getLsbD i

/-- `w[lo+len-1 : lo]`, the field of `len` bits whose lowest bit is `lo`. -/
def field (w : Word) (lo len : Nat) : BitVec len := w.extractLsb' lo len

/-- The word whose bits from `lo` up are `v` and whose other bits are 0. -/
def place (lo : Nat) {len : Nat} (v : BitVec len) : Word := v.setWidth 32 <<< lo

/-- One bit as a field of width 1. -/
def place1 (lo : Nat) (b : Bool) : Word := place lo (BitVec.ofBool b)

/-! ## Numberings -/

/-- A register number as its 4-bit field. -/
def Reg.bits (r : Reg) : BitVec 4 := BitVec.ofFin r

/-- A 4-bit field as a register number: all sixteen are allowed (`spec/10_state.md` R22). -/
def Reg.ofBits (b : BitVec 4) : Reg := b.toFin

/-- The code of a condition (`spec/40_condition.md` R131). -/
def Cond.bits : Cond → BitVec 4
  | .eq => 0
  | .ne => 1
  | .cs => 2
  | .cc => 3
  | .mi => 4
  | .pl => 5
  | .vs => 6
  | .vc => 7
  | .hi => 8
  | .ls => 9
  | .ge => 10
  | .lt => 11
  | .gt => 12
  | .le => 13
  | .al => 14
  | .nv => 15

/-- The condition of a code (`spec/40_condition.md` R131). -/
def Cond.ofBits (b : BitVec 4) : Cond :=
  match b.toNat with
  | 0 => .eq
  | 1 => .ne
  | 2 => .cs
  | 3 => .cc
  | 4 => .mi
  | 5 => .pl
  | 6 => .vs
  | 7 => .vc
  | 8 => .hi
  | 9 => .ls
  | 10 => .ge
  | 11 => .lt
  | 12 => .gt
  | 13 => .le
  | 14 => .al
  | _ => .nv

/-- The code of a shift mode (R95). -/
def ShiftMode.bits : ShiftMode → BitVec 2
  | .lsl => 0
  | .lsr => 1
  | .asr => 2
  | .ror => 3

/-- The shift mode of a code (R95). -/
def ShiftMode.ofBits (b : BitVec 2) : ShiftMode :=
  match b.toNat with
  | 0 => .lsl
  | 1 => .lsr
  | 2 => .asr
  | _ => .ror

/-- The code of a data-processing opcode (R91). -/
def DpOp.bits : DpOp → BitVec 4
  | .and => 0
  | .eor => 1
  | .sub => 2
  | .rsb => 3
  | .add => 4
  | .adc => 5
  | .sbc => 6
  | .rsc => 7
  | .tst => 8
  | .teq => 9
  | .cmp => 10
  | .cmn => 11
  | .orr => 12
  | .mov => 13
  | .bic => 14
  | .mvn => 15

/-- The data-processing opcode of a code (R91). -/
def DpOp.ofBits (b : BitVec 4) : DpOp :=
  match b.toNat with
  | 0 => .and
  | 1 => .eor
  | 2 => .sub
  | 3 => .rsb
  | 4 => .add
  | 5 => .adc
  | 6 => .sbc
  | 7 => .rsc
  | 8 => .tst
  | 9 => .teq
  | 10 => .cmp
  | 11 => .cmn
  | 12 => .orr
  | 13 => .mov
  | 14 => .bic
  | _ => .mvn

/-! ## The classifier (R83 to R89) -/

/-- An entry of the classifier's table: "an immutable triple (mask, expected-pattern, category)" (R84). -/
structure TableEntry where
  mask : Word
  pattern : Word
  category : Category
deriving DecidableEq, Repr

/-- `(w & mask) == pattern` (R83). -/
def TableEntry.matches (e : TableEntry) (w : Word) : Bool := w &&& e.mask == e.pattern

/-- The specificity of an entry: the number of set bits of its mask (R84). -/
def TableEntry.popCount (e : TableEntry) : Nat := ((List.range 32).filter e.mask.getLsbD).length

/-- The table in declaration order (R85). -/
def declarationTable : List TableEntry :=
  [ ⟨0x0FFFFFF0, 0x012FFF10, .branchExchange⟩,
    ⟨0x0FBF0FFF, 0x010F0000, .mrs⟩,
    ⟨0x0FBFFFF0, 0x0129F000, .msr⟩,
    ⟨0x0DBFF000, 0x0128F000, .msrFlags⟩,
    ⟨0x0FC000F0, 0x00000090, .multiply⟩,
    ⟨0x0F8000F0, 0x00800090, .longMultiply⟩,
    ⟨0x0FB00FF0, 0x01000090, .singleDataSwap⟩,
    ⟨0x0E400FB0, 0x000000B0, .halfWordTransferRegister⟩,
    ⟨0x0E400FD0, 0x000000D0, .halfWordTransferRegister⟩,
    ⟨0x0E4000B0, 0x004000B0, .halfWordTransferImmediate⟩,
    ⟨0x0E4000D0, 0x004000D0, .halfWordTransferImmediate⟩,
    ⟨0x0C000000, 0x04000000, .singleDataTransfer⟩,
    ⟨0x0E000010, 0x06000010, .undefined⟩,
    ⟨0x0E000000, 0x08000000, .blockDataTransfer⟩,
    ⟨0x0E000000, 0x0A000000, .branch⟩,
    ⟨0x0E000000, 0x0C000000, .coprocDataTransfer⟩,
    ⟨0x0F000010, 0x0E000000, .coprocDataOperation⟩,
    ⟨0x0F000010, 0x0E000010, .coprocRegisterTransfer⟩,
    ⟨0x0F000000, 0x0F000000, .softwareInterrupt⟩,
    ⟨0x0C000000, 0x00000000, .dataProcessing⟩ ]

/-- The table in priority order, the order the classifier walks (R86): rows 1, 2, 3, 7, 4, 8, 9, 5, 6, 10, 11, 17, 18, 13, 19,
14, 15, 16, 12, 20 of R85. -/
def priorityTable : List TableEntry :=
  [ ⟨0x0FFFFFF0, 0x012FFF10, .branchExchange⟩,
    ⟨0x0FBF0FFF, 0x010F0000, .mrs⟩,
    ⟨0x0FBFFFF0, 0x0129F000, .msr⟩,
    ⟨0x0FB00FF0, 0x01000090, .singleDataSwap⟩,
    ⟨0x0DBFF000, 0x0128F000, .msrFlags⟩,
    ⟨0x0E400FB0, 0x000000B0, .halfWordTransferRegister⟩,
    ⟨0x0E400FD0, 0x000000D0, .halfWordTransferRegister⟩,
    ⟨0x0FC000F0, 0x00000090, .multiply⟩,
    ⟨0x0F8000F0, 0x00800090, .longMultiply⟩,
    ⟨0x0E4000B0, 0x004000B0, .halfWordTransferImmediate⟩,
    ⟨0x0E4000D0, 0x004000D0, .halfWordTransferImmediate⟩,
    ⟨0x0F000010, 0x0E000000, .coprocDataOperation⟩,
    ⟨0x0F000010, 0x0E000010, .coprocRegisterTransfer⟩,
    ⟨0x0E000010, 0x06000010, .undefined⟩,
    ⟨0x0F000000, 0x0F000000, .softwareInterrupt⟩,
    ⟨0x0E000000, 0x08000000, .blockDataTransfer⟩,
    ⟨0x0E000000, 0x0A000000, .branch⟩,
    ⟨0x0E000000, 0x0C000000, .coprocDataTransfer⟩,
    ⟨0x0C000000, 0x04000000, .singleDataTransfer⟩,
    ⟨0x0C000000, 0x00000000, .dataProcessing⟩ ]

/-- The classification algorithm over any table: the category of the first entry that matches, else Undefined (R83, R304). -/
def classifyBy : List TableEntry → Word → Category
  | [], _ => .undefined
  | e :: rest, w => if e.matches w then e.category else classifyBy rest w

/-- The classifier: the walk of the table in priority order (R83, R86). -/
def classify (w : Word) : Category := classifyBy priorityTable w

/-- The part of R89 for `w[27:26] = 00`, in its order. -/
def classifyLow (w : Word) : Category :=
  if field w 4 24 == 0x12FFF1 then .branchExchange
  else if field w 23 5 == 0b00010 && field w 16 6 == 0b001111 && field w 0 12 == 0 then .mrs
  else if field w 23 5 == 0b00010 && field w 4 18 == 0x29F00 then .msr
  else if field w 23 5 == 0b00010 && field w 20 2 == 0b00 && field w 4 8 == 0x09 then .singleDataSwap
  else if field w 23 2 == 0b10 && field w 12 10 == 0x28F then .msrFlags
  else if !bitAt w 25 && bitAt w 7 && bitAt w 4 && field w 5 2 != 0b00 && bitAt w 22 then .halfWordTransferImmediate
  else if !bitAt w 25 && bitAt w 7 && bitAt w 4 && field w 5 2 != 0b00 && field w 8 4 == 0 then .halfWordTransferRegister
  else if field w 22 4 == 0b0000 && field w 4 4 == 0b1001 then .multiply
  else if field w 23 3 == 0b001 && field w 4 4 == 0b1001 then .longMultiply
  else .dataProcessing

/-- The same classification as a decision procedure on the fields of the word (R89); the decoder uses it, and that it equals
the table walk is one of the model's statements. -/
def classifyTree (w : Word) : Category :=
  match (field w 26 2).toNat with
  | 1 => if bitAt w 25 && bitAt w 4 then .undefined else .singleDataTransfer
  | 2 => if bitAt w 25 then .branch else .blockDataTransfer
  | 3 =>
    if !bitAt w 25 then .coprocDataTransfer
    else if bitAt w 24 then .softwareInterrupt
    else if bitAt w 4 then .coprocRegisterTransfer
    else .coprocDataOperation
  | _ => classifyLow w

/-! ## Decoding the fields of each format -/

/-- The register whose number stands in the four bits from `lo` up. -/
def regAt (w : Word) (lo : Nat) : Reg := Reg.ofBits (field w lo 4)

/-- Operand 2, immediate form: `rot = w[11:8]`, `imm8 = w[7:0]` (R92). -/
def decodeRotImm (w : Word) : RotImm := ⟨field w 8 4, field w 0 8⟩

/-- A register with an immediate shift: `amount = w[11:7]`, `mode = w[6:5]`, `Rm = w[3:0]` (R93, R98). -/
def decodeShiftImm (w : Word) : ShiftImm := ⟨field w 7 5, ShiftMode.ofBits (field w 5 2), regAt w 0⟩

/-- A register with a register shift: `Rs = w[11:8]`, `w[7]`, `mode = w[6:5]`, `Rm = w[3:0]` (R94). -/
def decodeShiftReg (w : Word) : ShiftReg := ⟨regAt w 8, bitAt w 7, ShiftMode.ofBits (field w 5 2), regAt w 0⟩

/-- `P = w[24]`, `U = w[23]`, `W = w[21]` (R97). -/
def decodeIndexing (w : Word) : Indexing := ⟨bitAt w 24, bitAt w 23, bitAt w 21⟩

/-- The data-processing instruction of an opcode, immediate form (R90, R91). -/
def DpOp.instrImm (op : DpOp) (c : Cond) (sf : Bool) (rn rd : Reg) (o : RotImm) : Instr :=
  match op with
  | .and => .andImm c sf rn rd o
  | .eor => .eorImm c sf rn rd o
  | .sub => .subImm c sf rn rd o
  | .rsb => .rsbImm c sf rn rd o
  | .add => .addImm c sf rn rd o
  | .adc => .adcImm c sf rn rd o
  | .sbc => .sbcImm c sf rn rd o
  | .rsc => .rscImm c sf rn rd o
  | .tst => if sf then .tstImm c rn rd o else .tstS0Imm c rn rd o
  | .teq => if sf then .teqImm c rn rd o else .teqS0Imm c rn rd o
  | .cmp => if sf then .cmpImm c rn rd o else .cmpS0Imm c rn rd o
  | .cmn => if sf then .cmnImm c rn rd o else .cmnS0Imm c rn rd o
  | .orr => .orrImm c sf rn rd o
  | .mov => .movImm c sf rn rd o
  | .bic => .bicImm c sf rn rd o
  | .mvn => .mvnImm c sf rn rd o

/-- The data-processing instruction of an opcode, register-immediate-shift form (R90, R91). -/
def DpOp.instrShiftImm (op : DpOp) (c : Cond) (sf : Bool) (rn rd : Reg) (o : ShiftImm) : Instr :=
  match op with
  | .and => .andShiftImm c sf rn rd o
  | .eor => .eorShiftImm c sf rn rd o
  | .sub => .subShiftImm c sf rn rd o
  | .rsb => .rsbShiftImm c sf rn rd o
  | .add => .addShiftImm c sf rn rd o
  | .adc => .adcShiftImm c sf rn rd o
  | .sbc => .sbcShiftImm c sf rn rd o
  | .rsc => .rscShiftImm c sf rn rd o
  | .tst => if sf then .tstShiftImm c rn rd o else .tstS0ShiftImm c rn rd o
  | .teq => if sf then .teqShiftImm c rn rd o else .teqS0ShiftImm c rn rd o
  | .cmp => if sf then .cmpShiftImm c rn rd o else .cmpS0ShiftImm c rn rd o
  | .cmn => if sf then .cmnShiftImm c rn rd o else .cmnS0ShiftImm c rn rd o
  | .orr => .orrShiftImm c sf rn rd o
  | .mov => .movShiftImm c sf rn rd o
  | .bic => .bicShiftImm c sf rn rd o
  | .mvn => .mvnShiftImm c sf rn rd o

/-- The data-processing instruction of an opcode, register-register-shift form (R90, R91). -/
def DpOp.instrShiftReg (op : DpOp) (c : Cond) (sf : Bool) (rn rd : Reg) (o : ShiftReg) : Instr :=
  match op with
  | .and => .andShiftReg c sf rn rd o
  | .eor => .eorShiftReg c sf rn rd o
  | .sub => .subShiftReg c sf rn rd o
  | .rsb => .rsbShiftReg c sf rn rd o
  | .add => .addShiftReg c sf rn rd o
  | .adc => .adcShiftReg c sf rn rd o
  | .sbc => .sbcShiftReg c sf rn rd o
  | .rsc => .rscShiftReg c sf rn rd o
  | .tst => if sf then .tstShiftReg c rn rd o else .tstS0ShiftReg c rn rd o
  | .teq => if sf then .teqShiftReg c rn rd o else .teqS0ShiftReg c rn rd o
  | .cmp => if sf then .cmpShiftReg c rn rd o else .cmpS0ShiftReg c rn rd o
  | .cmn => if sf then .cmnShiftReg c rn rd o else .cmnS0ShiftReg c rn rd o
  | .orr => .orrShiftReg c sf rn rd o
  | .mov => .movShiftReg c sf rn rd o
  | .bic => .bicShiftReg c sf rn rd o
  | .mvn => .mvnShiftReg c sf rn rd o

/-- A word of the category DataProcessing (R90 to R94). -/
def decodeDataProcessing (c : Cond) (w : Word) : Instr :=
  let op := DpOp.ofBits (field w 21 4)
  if bitAt w 25 then op.instrImm c (bitAt w 20) (regAt w 16) (regAt w 12) (decodeRotImm w)
  else if bitAt w 4 then op.instrShiftReg c (bitAt w 20) (regAt w 16) (regAt w 12) (decodeShiftReg w)
  else op.instrShiftImm c (bitAt w 20) (regAt w 16) (regAt w 12) (decodeShiftImm w)

/-- A word of the category SingleDataTransfer, offset an immediate: `L = w[20]`, `B = w[22]` (R97, R98). -/
def decodeTransferImm (c : Cond) (w : Word) : Instr :=
  match bitAt w 20, bitAt w 22 with
  | true, false => .ldrImm c (decodeIndexing w) (regAt w 16) (regAt w 12) (field w 0 12)
  | false, false => .strImm c (decodeIndexing w) (regAt w 16) (regAt w 12) (field w 0 12)
  | true, true => .ldrbImm c (decodeIndexing w) (regAt w 16) (regAt w 12) (field w 0 12)
  | false, true => .strbImm c (decodeIndexing w) (regAt w 16) (regAt w 12) (field w 0 12)

/-- A word of the category SingleDataTransfer, offset a shifted register (R97, R98). -/
def decodeTransferReg (c : Cond) (w : Word) : Instr :=
  match bitAt w 20, bitAt w 22 with
  | true, false => .ldrReg c (decodeIndexing w) (regAt w 16) (regAt w 12) (decodeShiftImm w)
  | false, false => .strReg c (decodeIndexing w) (regAt w 16) (regAt w 12) (decodeShiftImm w)
  | true, true => .ldrbReg c (decodeIndexing w) (regAt w 16) (regAt w 12) (decodeShiftImm w)
  | false, true => .strbReg c (decodeIndexing w) (regAt w 16) (regAt w 12) (decodeShiftImm w)

/-- A word of the category Branch: `L = w[24]` (R99). -/
def decodeBranch (c : Cond) (w : Word) : Instr :=
  if bitAt w 24 then .bl c (field w 0 24) else .b c (field w 0 24)

/-- A word of the category LongMultiply: `U = w[22]`, `A = w[21]` (R100). -/
def decodeLongMultiply (c : Cond) (w : Word) : Instr :=
  match bitAt w 22, bitAt w 21 with
  | false, false => .umull c (bitAt w 20) (regAt w 16) (regAt w 12) (regAt w 8) (regAt w 0)
  | false, true => .umlal c (bitAt w 20) (regAt w 16) (regAt w 12) (regAt w 8) (regAt w 0)
  | true, false => .smull c (bitAt w 20) (regAt w 16) (regAt w 12) (regAt w 8) (regAt w 0)
  | true, true => .smlal c (bitAt w 20) (regAt w 16) (regAt w 12) (regAt w 8) (regAt w 0)

/-- A word of the category Multiply: `A = w[21]` (R101). -/
def decodeMultiply (c : Cond) (w : Word) : Instr :=
  if bitAt w 21 then .mla c (bitAt w 20) (regAt w 16) (regAt w 12) (regAt w 8) (regAt w 0)
  else .mul c (bitAt w 20) (regAt w 16) (regAt w 12) (regAt w 8) (regAt w 0)

/-- A word of the category SingleDataSwap: `B = w[22]` (R101). -/
def decodeSwap (c : Cond) (w : Word) : Instr :=
  if bitAt w 22 then .swpb c (regAt w 16) (regAt w 12) (regAt w 0) else .swp c (regAt w 16) (regAt w 12) (regAt w 0)

/-- A word of the category HalfWordTransferRegister: `L = w[20]`, `S H = w[6:5]`, never 00 in the category (R101, R291). -/
def decodeHalfwordReg (c : Cond) (w : Word) : Instr :=
  match bitAt w 20, bitAt w 6, bitAt w 5 with
  | false, false, _ => .strhReg c (decodeIndexing w) (regAt w 16) (regAt w 12) (regAt w 0)
  | true, false, _ => .ldrhReg c (decodeIndexing w) (regAt w 16) (regAt w 12) (regAt w 0)
  | true, true, false => .ldrsbReg c (decodeIndexing w) (regAt w 16) (regAt w 12) (regAt w 0)
  | true, true, true => .ldrshReg c (decodeIndexing w) (regAt w 16) (regAt w 12) (regAt w 0)
  | false, true, false => .hwReservedRegSh2 c (decodeIndexing w) (regAt w 16) (regAt w 12) (regAt w 0)
  | false, true, true => .hwReservedRegSh3 c (decodeIndexing w) (regAt w 16) (regAt w 12) (regAt w 0)

/-- A word of the category HalfWordTransferImmediate: offset `w[11:8] :: w[3:0]` (R101, R291). -/
def decodeHalfwordImm (c : Cond) (w : Word) : Instr :=
  match bitAt w 20, bitAt w 6, bitAt w 5 with
  | false, false, _ => .strhImm c (decodeIndexing w) (regAt w 16) (regAt w 12) (field w 8 4) (field w 0 4)
  | true, false, _ => .ldrhImm c (decodeIndexing w) (regAt w 16) (regAt w 12) (field w 8 4) (field w 0 4)
  | true, true, false => .ldrsbImm c (decodeIndexing w) (regAt w 16) (regAt w 12) (field w 8 4) (field w 0 4)
  | true, true, true => .ldrshImm c (decodeIndexing w) (regAt w 16) (regAt w 12) (field w 8 4) (field w 0 4)
  | false, true, false => .hwReservedImmSh2 c (decodeIndexing w) (regAt w 16) (regAt w 12) (field w 8 4) (field w 0 4)
  | false, true, true => .hwReservedImmSh3 c (decodeIndexing w) (regAt w 16) (regAt w 12) (field w 8 4) (field w 0 4)

/-- A word of the category BlockDataTransfer: `S = w[22]`, `L = w[20]` (R101). -/
def decodeBlock (c : Cond) (w : Word) : Instr :=
  if bitAt w 20 then .ldm c (decodeIndexing w) (bitAt w 22) (regAt w 16) (field w 0 16)
  else .stm c (decodeIndexing w) (bitAt w 22) (regAt w 16) (field w 0 16)

/-- A word of the category CoprocDataTransfer: `N = w[22]`, `L = w[20]` (R101). -/
def decodeCoprocTransfer (c : Cond) (w : Word) : Instr :=
  if bitAt w 20 then .ldc c (decodeIndexing w) (bitAt w 22) (regAt w 16) (field w 12 4) (field w 8 4) (field w 0 8)
  else .stc c (decodeIndexing w) (bitAt w 22) (regAt w 16) (field w 12 4) (field w 8 4) (field w 0 8)

/-- A word of the category CoprocRegisterTransfer: `L = w[20]` (R101). -/
def decodeCoprocRegister (c : Cond) (w : Word) : Instr :=
  if bitAt w 20 then .mrc c (field w 21 3) (field w 16 4) (regAt w 12) (field w 8 4) (field w 5 3) (field w 0 4)
  else .mcr c (field w 21 3) (field w 16 4) (regAt w 12) (field w 8 4) (field w 5 3) (field w 0 4)

/-- The decoder: total on every 32-bit word (R88). -/
def decode (w : Word) : Instr :=
  let c := Cond.ofBits (field w 28 4)
  match classifyTree w with
  | .dataProcessing => decodeDataProcessing c w
  | .singleDataTransfer => if bitAt w 25 then decodeTransferReg c w else decodeTransferImm c w
  | .branch => decodeBranch c w
  | .longMultiply => decodeLongMultiply c w
  | .multiply => decodeMultiply c w
  | .singleDataSwap => decodeSwap c w
  | .halfWordTransferRegister => decodeHalfwordReg c w
  | .halfWordTransferImmediate => decodeHalfwordImm c w
  | .blockDataTransfer => decodeBlock c w
  | .branchExchange => .bx c (regAt w 0)
  | .mrs => .mrs c (bitAt w 22) (regAt w 12)
  | .msr => .msr c (bitAt w 22) (regAt w 0)
  | .msrFlags => .msrFlags c (bitAt w 25) (bitAt w 22) (field w 0 12)
  | .coprocDataTransfer => decodeCoprocTransfer c w
  | .coprocDataOperation => .cdp c (field w 20 4) (field w 16 4) (field w 12 4) (field w 8 4) (field w 5 3) (field w 0 4)
  | .coprocRegisterTransfer => decodeCoprocRegister c w
  | .softwareInterrupt => .swi c (field w 0 24)
  | .undefined => .undefined c (field w 5 20) (field w 0 4)

/-! ## Bytes -/

/-- Why a byte string is no instruction: it is shorter than one instruction word (R80). -/
inductive DecodeError where
  | truncated
deriving DecidableEq, Repr

/-- Four bytes composed little-endian, the first the least significant (R80; `spec/20_memory.md` R51, R52). -/
def wordOfBytes (b0 b1 b2 b3 : Byte) : Word := b3 ++ b2 ++ b1 ++ b0

/-- The four bytes of a word, the least significant first (R80; `spec/20_memory.md` R53). -/
def bytesOfWord (v : Word) : List Byte :=
  [v.extractLsb' 0 8, v.extractLsb' 8 8, v.extractLsb' 16 8, v.extractLsb' 24 8]

/-- The instruction at the head of a byte string, with the bytes after it; a string of fewer than four bytes is rejected. -/
def decodeBytes : List Byte → Except DecodeError (Instr × List Byte)
  | b0 :: b1 :: b2 :: b3 :: rest => .ok (decode (wordOfBytes b0 b1 b2 b3), rest)
  | _ => .error .truncated

/-- What the decoder reads from an instruction whose low `nbits` bits are `w` and whose other bits are 0, laid out in bytes
as the hardware stores it. -/
def decodeTableWord (nbits w : Nat) : Option Instr :=
  match decodeBytes (bytesOfWord (BitVec.ofNat 32 (w % 2 ^ nbits))) with
  | .ok (i, _) => some i
  | .error _ => none

/-! ## Encoding -/

/-- Operand 2, immediate form, in its place (R92). -/
def RotImm.word (o : RotImm) : Word := place 8 o.rot ||| place 0 o.imm8

/-- A register with an immediate shift, in its place; `w[4] = 0` (R93). -/
def ShiftImm.word (o : ShiftImm) : Word := place 7 o.amount ||| place 5 o.mode.bits ||| place 0 o.rm.bits

/-- A register with a register shift, in its place; `w[4] = 1` (R94). -/
def ShiftReg.word (o : ShiftReg) : Word :=
  place 8 o.rs.bits ||| place1 7 o.bit7 ||| place 5 o.mode.bits ||| 0x10 ||| place 0 o.rm.bits

/-- The indexing bits in their places (R97). -/
def Indexing.word (ix : Indexing) : Word := place1 24 ix.p ||| place1 23 ix.u ||| place1 21 ix.w

/-- The data-processing format; `im` is `w[25]`, `o` the placed operand 2 (R90). -/
def encodeDp (im : Bool) (op : DpOp) (c : Cond) (sf : Bool) (rn rd : Reg) (o : Word) : Word :=
  place 28 c.bits ||| place1 25 im ||| place 21 op.bits ||| place1 20 sf ||| place 16 rn.bits ||| place 12 rd.bits ||| o

/-- The transfer formats: `fixed` gives the bits the row fixes, `o` the placed offset (R97, R98, R101). -/
def encodeTransfer (fixed : Word) (c : Cond) (ix : Indexing) (rn rd : Reg) (o : Word) : Word :=
  place 28 c.bits ||| fixed ||| ix.word ||| place 16 rn.bits ||| place 12 rd.bits ||| o

/-- The multiply formats: registers at 19:16, 15:12, 11:8 and 3:0, `w[7:4] = 1001` in `fixed` (R100, R101). -/
def encodeMultiply (fixed : Word) (c : Cond) (sf : Bool) (r16 r12 r8 r0 : Reg) : Word :=
  place 28 c.bits ||| fixed ||| place1 20 sf ||| place 16 r16.bits ||| place 12 r12.bits ||| place 8 r8.bits ||| place 0 r0.bits

/-- The swap format (R101). -/
def encodeSwap (fixed : Word) (c : Cond) (rn rd rm : Reg) : Word :=
  place 28 c.bits ||| fixed ||| place 16 rn.bits ||| place 12 rd.bits ||| place 0 rm.bits

/-- The block transfer format; `w[22]` is the bit `S` (R101). -/
def encodeBlock (fixed : Word) (c : Cond) (ix : Indexing) (psr : Bool) (rn : Reg) (regList : BitVec 16) : Word :=
  place 28 c.bits ||| fixed ||| ix.word ||| place1 22 psr ||| place 16 rn.bits ||| place 0 regList

/-- The coprocessor data transfer format; `w[22]` is the bit `N` (R101). -/
def encodeCoprocTransfer (fixed : Word) (c : Cond) (ix : Indexing) (nbit : Bool) (rn : Reg) (crd cpNum : BitVec 4)
    (offset8 : BitVec 8) : Word :=
  place 28 c.bits ||| fixed ||| ix.word ||| place1 22 nbit ||| place 16 rn.bits ||| place 12 crd ||| place 8 cpNum
    ||| place 0 offset8

/-- The coprocessor register transfer format (R101). -/
def encodeCoprocRegister (fixed : Word) (c : Cond) (opc : BitVec 3) (crn : BitVec 4) (rd : Reg) (cpNum : BitVec 4)
    (cp : BitVec 3) (crm : BitVec 4) : Word :=
  place 28 c.bits ||| fixed ||| place 21 opc ||| place 16 crn ||| place 12 rd.bits ||| place 8 cpNum ||| place 5 cp
    ||| place 0 crm

/-- The encoder: the word of an instruction, from the formats of R90 to R101. -/
def encode : Instr → Word
  | .bx c rn => place 28 c.bits ||| 0x012FFF10 ||| place 0 rn.bits
  | .mrs c ps rd => place 28 c.bits ||| 0x010F0000 ||| place1 22 ps ||| place 12 rd.bits
  | .msr c pd rm => place 28 c.bits ||| 0x0129F000 ||| place1 22 pd ||| place 0 rm.bits
  | .swp c rn rd rm => encodeSwap 0x01000090 c rn rd rm
  | .swpb c rn rd rm => encodeSwap 0x01400090 c rn rd rm
  | .msrFlags c im pd operand => place 28 c.bits ||| 0x0128F000 ||| place1 25 im ||| place1 22 pd ||| place 0 operand
  | .strhReg c ix rn rd rm => encodeTransfer 0x000000B0 c ix rn rd (place 0 rm.bits)
  | .ldrhReg c ix rn rd rm => encodeTransfer 0x001000B0 c ix rn rd (place 0 rm.bits)
  | .ldrsbReg c ix rn rd rm => encodeTransfer 0x001000D0 c ix rn rd (place 0 rm.bits)
  | .ldrshReg c ix rn rd rm => encodeTransfer 0x001000F0 c ix rn rd (place 0 rm.bits)
  | .hwReservedRegSh2 c ix rn rd rm => encodeTransfer 0x000000D0 c ix rn rd (place 0 rm.bits)
  | .hwReservedRegSh3 c ix rn rd rm => encodeTransfer 0x000000F0 c ix rn rd (place 0 rm.bits)
  | .mul c sf rd rn rs rm => encodeMultiply 0x00000090 c sf rd rn rs rm
  | .mla c sf rd rn rs rm => encodeMultiply 0x00200090 c sf rd rn rs rm
  | .umull c sf rdHi rdLo rs rm => encodeMultiply 0x00800090 c sf rdHi rdLo rs rm
  | .umlal c sf rdHi rdLo rs rm => encodeMultiply 0x00A00090 c sf rdHi rdLo rs rm
  | .smull c sf rdHi rdLo rs rm => encodeMultiply 0x00C00090 c sf rdHi rdLo rs rm
  | .smlal c sf rdHi rdLo rs rm => encodeMultiply 0x00E00090 c sf rdHi rdLo rs rm
  | .strhImm c ix rn rd offHi offLo => encodeTransfer 0x004000B0 c ix rn rd (place 8 offHi ||| place 0 offLo)
  | .ldrhImm c ix rn rd offHi offLo => encodeTransfer 0x005000B0 c ix rn rd (place 8 offHi ||| place 0 offLo)
  | .ldrsbImm c ix rn rd offHi offLo => encodeTransfer 0x005000D0 c ix rn rd (place 8 offHi ||| place 0 offLo)
  | .ldrshImm c ix rn rd offHi offLo => encodeTransfer 0x005000F0 c ix rn rd (place 8 offHi ||| place 0 offLo)
  | .hwReservedImmSh2 c ix rn rd offHi offLo => encodeTransfer 0x004000D0 c ix rn rd (place 8 offHi ||| place 0 offLo)
  | .hwReservedImmSh3 c ix rn rd offHi offLo => encodeTransfer 0x004000F0 c ix rn rd (place 8 offHi ||| place 0 offLo)
  | .cdp c opc crn crd cpNum cp crm => place 28 c.bits ||| 0x0E000000 ||| place 20 opc ||| place 16 crn ||| place 12 crd ||| place 8 cpNum ||| place 5 cp ||| place 0 crm
  | .mrc c opc crn rd cpNum cp crm => encodeCoprocRegister 0x0E100010 c opc crn rd cpNum cp crm
  | .mcr c opc crn rd cpNum cp crm => encodeCoprocRegister 0x0E000010 c opc crn rd cpNum cp crm
  | .undefined c xHi xLo => place 28 c.bits ||| 0x06000010 ||| place 5 xHi ||| place 0 xLo
  | .swi c comment => place 28 c.bits ||| 0x0F000000 ||| place 0 comment
  | .ldm c ix psr rn regList => encodeBlock 0x08100000 c ix psr rn regList
  | .stm c ix psr rn regList => encodeBlock 0x08000000 c ix psr rn regList
  | .b c imm24 => place 28 c.bits ||| 0x0A000000 ||| place 0 imm24
  | .bl c imm24 => place 28 c.bits ||| 0x0B000000 ||| place 0 imm24
  | .ldc c ix nbit rn crd cpNum offset8 => encodeCoprocTransfer 0x0C100000 c ix nbit rn crd cpNum offset8
  | .stc c ix nbit rn crd cpNum offset8 => encodeCoprocTransfer 0x0C000000 c ix nbit rn crd cpNum offset8
  | .ldrImm c ix rn rd imm12 => encodeTransfer 0x04100000 c ix rn rd (place 0 imm12)
  | .ldrReg c ix rn rd o => encodeTransfer 0x06100000 c ix rn rd o.word
  | .strImm c ix rn rd imm12 => encodeTransfer 0x04000000 c ix rn rd (place 0 imm12)
  | .strReg c ix rn rd o => encodeTransfer 0x06000000 c ix rn rd o.word
  | .ldrbImm c ix rn rd imm12 => encodeTransfer 0x04500000 c ix rn rd (place 0 imm12)
  | .ldrbReg c ix rn rd o => encodeTransfer 0x06500000 c ix rn rd o.word
  | .strbImm c ix rn rd imm12 => encodeTransfer 0x04400000 c ix rn rd (place 0 imm12)
  | .strbReg c ix rn rd o => encodeTransfer 0x06400000 c ix rn rd o.word
  | .andImm c sf rn rd o => encodeDp true .and c sf rn rd o.word
  | .andShiftImm c sf rn rd o => encodeDp false .and c sf rn rd o.word
  | .andShiftReg c sf rn rd o => encodeDp false .and c sf rn rd o.word
  | .eorImm c sf rn rd o => encodeDp true .eor c sf rn rd o.word
  | .eorShiftImm c sf rn rd o => encodeDp false .eor c sf rn rd o.word
  | .eorShiftReg c sf rn rd o => encodeDp false .eor c sf rn rd o.word
  | .subImm c sf rn rd o => encodeDp true .sub c sf rn rd o.word
  | .subShiftImm c sf rn rd o => encodeDp false .sub c sf rn rd o.word
  | .subShiftReg c sf rn rd o => encodeDp false .sub c sf rn rd o.word
  | .rsbImm c sf rn rd o => encodeDp true .rsb c sf rn rd o.word
  | .rsbShiftImm c sf rn rd o => encodeDp false .rsb c sf rn rd o.word
  | .rsbShiftReg c sf rn rd o => encodeDp false .rsb c sf rn rd o.word
  | .addImm c sf rn rd o => encodeDp true .add c sf rn rd o.word
  | .addShiftImm c sf rn rd o => encodeDp false .add c sf rn rd o.word
  | .addShiftReg c sf rn rd o => encodeDp false .add c sf rn rd o.word
  | .adcImm c sf rn rd o => encodeDp true .adc c sf rn rd o.word
  | .adcShiftImm c sf rn rd o => encodeDp false .adc c sf rn rd o.word
  | .adcShiftReg c sf rn rd o => encodeDp false .adc c sf rn rd o.word
  | .sbcImm c sf rn rd o => encodeDp true .sbc c sf rn rd o.word
  | .sbcShiftImm c sf rn rd o => encodeDp false .sbc c sf rn rd o.word
  | .sbcShiftReg c sf rn rd o => encodeDp false .sbc c sf rn rd o.word
  | .rscImm c sf rn rd o => encodeDp true .rsc c sf rn rd o.word
  | .rscShiftImm c sf rn rd o => encodeDp false .rsc c sf rn rd o.word
  | .rscShiftReg c sf rn rd o => encodeDp false .rsc c sf rn rd o.word
  | .tstImm c rn rd o => encodeDp true .tst c true rn rd o.word
  | .tstS0Imm c rn rd o => encodeDp true .tst c false rn rd o.word
  | .tstShiftImm c rn rd o => encodeDp false .tst c true rn rd o.word
  | .tstS0ShiftImm c rn rd o => encodeDp false .tst c false rn rd o.word
  | .tstShiftReg c rn rd o => encodeDp false .tst c true rn rd o.word
  | .tstS0ShiftReg c rn rd o => encodeDp false .tst c false rn rd o.word
  | .teqImm c rn rd o => encodeDp true .teq c true rn rd o.word
  | .teqS0Imm c rn rd o => encodeDp true .teq c false rn rd o.word
  | .teqShiftImm c rn rd o => encodeDp false .teq c true rn rd o.word
  | .teqS0ShiftImm c rn rd o => encodeDp false .teq c false rn rd o.word
  | .teqShiftReg c rn rd o => encodeDp false .teq c true rn rd o.word
  | .teqS0ShiftReg c rn rd o => encodeDp false .teq c false rn rd o.word
  | .cmpImm c rn rd o => encodeDp true .cmp c true rn rd o.word
  | .cmpS0Imm c rn rd o => encodeDp true .cmp c false rn rd o.word
  | .cmpShiftImm c rn rd o => encodeDp false .cmp c true rn rd o.word
  | .cmpS0ShiftImm c rn rd o => encodeDp false .cmp c false rn rd o.word
  | .cmpShiftReg c rn rd o => encodeDp false .cmp c true rn rd o.word
  | .cmpS0ShiftReg c rn rd o => encodeDp false .cmp c false rn rd o.word
  | .cmnImm c rn rd o => encodeDp true .cmn c true rn rd o.word
  | .cmnS0Imm c rn rd o => encodeDp true .cmn c false rn rd o.word
  | .cmnShiftImm c rn rd o => encodeDp false .cmn c true rn rd o.word
  | .cmnS0ShiftImm c rn rd o => encodeDp false .cmn c false rn rd o.word
  | .cmnShiftReg c rn rd o => encodeDp false .cmn c true rn rd o.word
  | .cmnS0ShiftReg c rn rd o => encodeDp false .cmn c false rn rd o.word
  | .orrImm c sf rn rd o => encodeDp true .orr c sf rn rd o.word
  | .orrShiftImm c sf rn rd o => encodeDp false .orr c sf rn rd o.word
  | .orrShiftReg c sf rn rd o => encodeDp false .orr c sf rn rd o.word
  | .movImm c sf rn rd o => encodeDp true .mov c sf rn rd o.word
  | .movShiftImm c sf rn rd o => encodeDp false .mov c sf rn rd o.word
  | .movShiftReg c sf rn rd o => encodeDp false .mov c sf rn rd o.word
  | .bicImm c sf rn rd o => encodeDp true .bic c sf rn rd o.word
  | .bicShiftImm c sf rn rd o => encodeDp false .bic c sf rn rd o.word
  | .bicShiftReg c sf rn rd o => encodeDp false .bic c sf rn rd o.word
  | .mvnImm c sf rn rd o => encodeDp true .mvn c sf rn rd o.word
  | .mvnShiftImm c sf rn rd o => encodeDp false .mvn c sf rn rd o.word
  | .mvnShiftReg c sf rn rd o => encodeDp false .mvn c sf rn rd o.word

/-- The condition of an instruction, `w[31:28]` (R82). -/
def Instr.cond : Instr → Cond
  | .bx c _ => c
  | .mrs c _ _ => c
  | .msr c _ _ => c
  | .swp c _ _ _ => c
  | .swpb c _ _ _ => c
  | .msrFlags c _ _ _ => c
  | .strhReg c _ _ _ _ => c
  | .ldrhReg c _ _ _ _ => c
  | .ldrsbReg c _ _ _ _ => c
  | .ldrshReg c _ _ _ _ => c
  | .hwReservedRegSh2 c _ _ _ _ => c
  | .hwReservedRegSh3 c _ _ _ _ => c
  | .mul c _ _ _ _ _ => c
  | .mla c _ _ _ _ _ => c
  | .umull c _ _ _ _ _ => c
  | .umlal c _ _ _ _ _ => c
  | .smull c _ _ _ _ _ => c
  | .smlal c _ _ _ _ _ => c
  | .strhImm c _ _ _ _ _ => c
  | .ldrhImm c _ _ _ _ _ => c
  | .ldrsbImm c _ _ _ _ _ => c
  | .ldrshImm c _ _ _ _ _ => c
  | .hwReservedImmSh2 c _ _ _ _ _ => c
  | .hwReservedImmSh3 c _ _ _ _ _ => c
  | .cdp c _ _ _ _ _ _ => c
  | .mrc c _ _ _ _ _ _ => c
  | .mcr c _ _ _ _ _ _ => c
  | .undefined c _ _ => c
  | .swi c _ => c
  | .ldm c _ _ _ _ => c
  | .stm c _ _ _ _ => c
  | .b c _ => c
  | .bl c _ => c
  | .ldc c _ _ _ _ _ _ => c
  | .stc c _ _ _ _ _ _ => c
  | .ldrImm c _ _ _ _ => c
  | .ldrReg c _ _ _ _ => c
  | .strImm c _ _ _ _ => c
  | .strReg c _ _ _ _ => c
  | .ldrbImm c _ _ _ _ => c
  | .ldrbReg c _ _ _ _ => c
  | .strbImm c _ _ _ _ => c
  | .strbReg c _ _ _ _ => c
  | .andImm c _ _ _ _ => c
  | .andShiftImm c _ _ _ _ => c
  | .andShiftReg c _ _ _ _ => c
  | .eorImm c _ _ _ _ => c
  | .eorShiftImm c _ _ _ _ => c
  | .eorShiftReg c _ _ _ _ => c
  | .subImm c _ _ _ _ => c
  | .subShiftImm c _ _ _ _ => c
  | .subShiftReg c _ _ _ _ => c
  | .rsbImm c _ _ _ _ => c
  | .rsbShiftImm c _ _ _ _ => c
  | .rsbShiftReg c _ _ _ _ => c
  | .addImm c _ _ _ _ => c
  | .addShiftImm c _ _ _ _ => c
  | .addShiftReg c _ _ _ _ => c
  | .adcImm c _ _ _ _ => c
  | .adcShiftImm c _ _ _ _ => c
  | .adcShiftReg c _ _ _ _ => c
  | .sbcImm c _ _ _ _ => c
  | .sbcShiftImm c _ _ _ _ => c
  | .sbcShiftReg c _ _ _ _ => c
  | .rscImm c _ _ _ _ => c
  | .rscShiftImm c _ _ _ _ => c
  | .rscShiftReg c _ _ _ _ => c
  | .tstImm c _ _ _ => c
  | .tstS0Imm c _ _ _ => c
  | .tstShiftImm c _ _ _ => c
  | .tstS0ShiftImm c _ _ _ => c
  | .tstShiftReg c _ _ _ => c
  | .tstS0ShiftReg c _ _ _ => c
  | .teqImm c _ _ _ => c
  | .teqS0Imm c _ _ _ => c
  | .teqShiftImm c _ _ _ => c
  | .teqS0ShiftImm c _ _ _ => c
  | .teqShiftReg c _ _ _ => c
  | .teqS0ShiftReg c _ _ _ => c
  | .cmpImm c _ _ _ => c
  | .cmpS0Imm c _ _ _ => c
  | .cmpShiftImm c _ _ _ => c
  | .cmpS0ShiftImm c _ _ _ => c
  | .cmpShiftReg c _ _ _ => c
  | .cmpS0ShiftReg c _ _ _ => c
  | .cmnImm c _ _ _ => c
  | .cmnS0Imm c _ _ _ => c
  | .cmnShiftImm c _ _ _ => c
  | .cmnS0ShiftImm c _ _ _ => c
  | .cmnShiftReg c _ _ _ => c
  | .cmnS0ShiftReg c _ _ _ => c
  | .orrImm c _ _ _ _ => c
  | .orrShiftImm c _ _ _ _ => c
  | .orrShiftReg c _ _ _ _ => c
  | .movImm c _ _ _ _ => c
  | .movShiftImm c _ _ _ _ => c
  | .movShiftReg c _ _ _ _ => c
  | .bicImm c _ _ _ _ => c
  | .bicShiftImm c _ _ _ _ => c
  | .bicShiftReg c _ _ _ _ => c
  | .mvnImm c _ _ _ _ => c
  | .mvnShiftImm c _ _ _ _ => c
  | .mvnShiftReg c _ _ _ _ => c

/-- The category of an instruction's row (R85, R96, R108). -/
def Instr.category : Instr → Category
  | .bx _ _ => .branchExchange
  | .mrs _ _ _ => .mrs
  | .msr _ _ _ => .msr
  | .swp _ _ _ _ => .singleDataSwap
  | .swpb _ _ _ _ => .singleDataSwap
  | .msrFlags _ _ _ _ => .msrFlags
  | .strhReg _ _ _ _ _ => .halfWordTransferRegister
  | .ldrhReg _ _ _ _ _ => .halfWordTransferRegister
  | .ldrsbReg _ _ _ _ _ => .halfWordTransferRegister
  | .ldrshReg _ _ _ _ _ => .halfWordTransferRegister
  | .hwReservedRegSh2 _ _ _ _ _ => .halfWordTransferRegister
  | .hwReservedRegSh3 _ _ _ _ _ => .halfWordTransferRegister
  | .mul _ _ _ _ _ _ => .multiply
  | .mla _ _ _ _ _ _ => .multiply
  | .umull _ _ _ _ _ _ => .longMultiply
  | .umlal _ _ _ _ _ _ => .longMultiply
  | .smull _ _ _ _ _ _ => .longMultiply
  | .smlal _ _ _ _ _ _ => .longMultiply
  | .strhImm _ _ _ _ _ _ => .halfWordTransferImmediate
  | .ldrhImm _ _ _ _ _ _ => .halfWordTransferImmediate
  | .ldrsbImm _ _ _ _ _ _ => .halfWordTransferImmediate
  | .ldrshImm _ _ _ _ _ _ => .halfWordTransferImmediate
  | .hwReservedImmSh2 _ _ _ _ _ _ => .halfWordTransferImmediate
  | .hwReservedImmSh3 _ _ _ _ _ _ => .halfWordTransferImmediate
  | .cdp _ _ _ _ _ _ _ => .coprocDataOperation
  | .mrc _ _ _ _ _ _ _ => .coprocRegisterTransfer
  | .mcr _ _ _ _ _ _ _ => .coprocRegisterTransfer
  | .undefined _ _ _ => .undefined
  | .swi _ _ => .softwareInterrupt
  | .ldm _ _ _ _ _ => .blockDataTransfer
  | .stm _ _ _ _ _ => .blockDataTransfer
  | .b _ _ => .branch
  | .bl _ _ => .branch
  | .ldc _ _ _ _ _ _ _ => .coprocDataTransfer
  | .stc _ _ _ _ _ _ _ => .coprocDataTransfer
  | .ldrImm _ _ _ _ _ => .singleDataTransfer
  | .ldrReg _ _ _ _ _ => .singleDataTransfer
  | .strImm _ _ _ _ _ => .singleDataTransfer
  | .strReg _ _ _ _ _ => .singleDataTransfer
  | .ldrbImm _ _ _ _ _ => .singleDataTransfer
  | .ldrbReg _ _ _ _ _ => .singleDataTransfer
  | .strbImm _ _ _ _ _ => .singleDataTransfer
  | .strbReg _ _ _ _ _ => .singleDataTransfer
  | .andImm _ _ _ _ _ => .dataProcessing
  | .andShiftImm _ _ _ _ _ => .dataProcessing
  | .andShiftReg _ _ _ _ _ => .dataProcessing
  | .eorImm _ _ _ _ _ => .dataProcessing
  | .eorShiftImm _ _ _ _ _ => .dataProcessing
  | .eorShiftReg _ _ _ _ _ => .dataProcessing
  | .subImm _ _ _ _ _ => .dataProcessing
  | .subShiftImm _ _ _ _ _ => .dataProcessing
  | .subShiftReg _ _ _ _ _ => .dataProcessing
  | .rsbImm _ _ _ _ _ => .dataProcessing
  | .rsbShiftImm _ _ _ _ _ => .dataProcessing
  | .rsbShiftReg _ _ _ _ _ => .dataProcessing
  | .addImm _ _ _ _ _ => .dataProcessing
  | .addShiftImm _ _ _ _ _ => .dataProcessing
  | .addShiftReg _ _ _ _ _ => .dataProcessing
  | .adcImm _ _ _ _ _ => .dataProcessing
  | .adcShiftImm _ _ _ _ _ => .dataProcessing
  | .adcShiftReg _ _ _ _ _ => .dataProcessing
  | .sbcImm _ _ _ _ _ => .dataProcessing
  | .sbcShiftImm _ _ _ _ _ => .dataProcessing
  | .sbcShiftReg _ _ _ _ _ => .dataProcessing
  | .rscImm _ _ _ _ _ => .dataProcessing
  | .rscShiftImm _ _ _ _ _ => .dataProcessing
  | .rscShiftReg _ _ _ _ _ => .dataProcessing
  | .tstImm _ _ _ _ => .dataProcessing
  | .tstS0Imm _ _ _ _ => .dataProcessing
  | .tstShiftImm _ _ _ _ => .dataProcessing
  | .tstS0ShiftImm _ _ _ _ => .dataProcessing
  | .tstShiftReg _ _ _ _ => .dataProcessing
  | .tstS0ShiftReg _ _ _ _ => .dataProcessing
  | .teqImm _ _ _ _ => .dataProcessing
  | .teqS0Imm _ _ _ _ => .dataProcessing
  | .teqShiftImm _ _ _ _ => .dataProcessing
  | .teqS0ShiftImm _ _ _ _ => .dataProcessing
  | .teqShiftReg _ _ _ _ => .dataProcessing
  | .teqS0ShiftReg _ _ _ _ => .dataProcessing
  | .cmpImm _ _ _ _ => .dataProcessing
  | .cmpS0Imm _ _ _ _ => .dataProcessing
  | .cmpShiftImm _ _ _ _ => .dataProcessing
  | .cmpS0ShiftImm _ _ _ _ => .dataProcessing
  | .cmpShiftReg _ _ _ _ => .dataProcessing
  | .cmpS0ShiftReg _ _ _ _ => .dataProcessing
  | .cmnImm _ _ _ _ => .dataProcessing
  | .cmnS0Imm _ _ _ _ => .dataProcessing
  | .cmnShiftImm _ _ _ _ => .dataProcessing
  | .cmnS0ShiftImm _ _ _ _ => .dataProcessing
  | .cmnShiftReg _ _ _ _ => .dataProcessing
  | .cmnS0ShiftReg _ _ _ _ => .dataProcessing
  | .orrImm _ _ _ _ _ => .dataProcessing
  | .orrShiftImm _ _ _ _ _ => .dataProcessing
  | .orrShiftReg _ _ _ _ _ => .dataProcessing
  | .movImm _ _ _ _ _ => .dataProcessing
  | .movShiftImm _ _ _ _ _ => .dataProcessing
  | .movShiftReg _ _ _ _ _ => .dataProcessing
  | .bicImm _ _ _ _ _ => .dataProcessing
  | .bicShiftImm _ _ _ _ _ => .dataProcessing
  | .bicShiftReg _ _ _ _ _ => .dataProcessing
  | .mvnImm _ _ _ _ _ => .dataProcessing
  | .mvnShiftImm _ _ _ _ _ => .dataProcessing
  | .mvnShiftReg _ _ _ _ _ => .dataProcessing

/-- The categories that have an execution unit (R96). -/
def Category.executes : Category → Bool
  | .dataProcessing | .singleDataTransfer | .branch | .longMultiply => true
  | .multiply | .singleDataSwap | .halfWordTransferImmediate | .halfWordTransferRegister | .blockDataTransfer
  | .branchExchange | .mrs | .msr | .msrFlags | .coprocDataTransfer | .coprocDataOperation | .coprocRegisterTransfer
  | .softwareInterrupt | .undefined => false

end Sys2Proof
end

