-- ==== Sys2Proof/Config.lean ====
section
/-! DEFINITION. What the spec leaves to an argument: the four parameters of `Reset` (`spec/00_scope.md` R6, R7 and
`spec/70_reset_and_hazards.md` R360) and their preconditions. The spec leaves no value of any instruction open
(`spec/93_implementation_defined.md` section 1: nothing is treated as any value), so there is no free value here. -/

namespace Sys2Proof

/-- The largest capacity of RAM, `2^32` bytes: every valid address then fits a 32-bit register (R6). -/
abbrev Config.maxRamSize : Nat := 4294967296

/-- The arguments of `Reset(RAM_SIZE, IMAGE, START_PC, LR_PRESET)` (R7, R360). -/
structure ResetArgs where
  /-- `RAM_SIZE`, in bytes (R6). -/
  ramSize : Nat
  /-- `IMAGE`, loaded starting at address 0 (R7). -/
  image : List Byte
  /-- `START_PC`, the address of the first fetch (R7, R362). -/
  startPc : Word
  /-- `LR_PRESET`: put the end-of-program sentinel `RAM_SIZE` in the link register (R7, R363). -/
  lrPreset : Bool
deriving DecidableEq, Repr

/-- The preconditions of Reset (R360): `1 <= RAM_SIZE <= 2^32` and the image fits. `0 <= START_PC < 2^32` holds by type. -/
def ResetArgs.valid (a : ResetArgs) : Bool :=
  decide (1 ≤ a.ramSize) && decide (a.ramSize ≤ Config.maxRamSize) && decide (a.image.length ≤ a.ramSize)

end Sys2Proof
end

