-- ==== Sys2Proof/Machine/Memory.lean ====
section
/-! DEFINITION. RAM as plain data (`spec/10_state.md` R32, `spec/20_memory.md` R50): a list of (address, byte) in one
canonical form, addresses strictly rising and no entry equal to what an unlisted address reads as. -/

namespace Sys2Proof.Machine

/-- The bytes of RAM that are not blank, by address. -/
abbrev Memory := List Host.Cell

/-- What an unlisted address of RAM reads as: 0, the reset content of every byte above the image
(`spec/70_reset_and_hazards.md` R361). -/
def Memory.blank : Byte := 0

/-- The byte at an address (R52, one byte). -/
def Memory.get : Memory → Nat → Byte
  | [], _ => Memory.blank
  | (k, v) :: rest, a => if k = a then v else Memory.get rest a

/-- The memory after one byte is written (R53, one byte), in canonical form. -/
def Memory.set : Memory → Nat → Byte → Memory
  | [], a, b => if b = Memory.blank then [] else [(a, b)]
  | (k, v) :: rest, a, b =>
    if k < a then (k, v) :: Memory.set rest a b
    else if k = a then (if b = Memory.blank then rest else (a, b) :: rest)
    else if b = Memory.blank then (k, v) :: rest
    else (a, b) :: (k, v) :: rest

/-- The canonical form: addresses strictly rising, no blank entry. -/
abbrev Memory.wf (m : Memory) : Prop :=
  List.Pairwise (fun x y : Host.Cell => x.1 < y.1) m ∧ ∀ x ∈ m, x.2 ≠ Memory.blank

/-- The memory that holds a byte string from an address up, and is blank elsewhere (R360). -/
def Memory.ofBytes : Nat → List Byte → Memory
  | _, [] => []
  | a, b :: rest => if b = Memory.blank then Memory.ofBytes (a + 1) rest else (a, b) :: Memory.ofBytes (a + 1) rest

end Sys2Proof.Machine
end

