-- ==== Sys2Proof/Machine/ResetValues.lean ====
section
/-! DEFINITION. The values Reset gives the parts of the state (`spec/10_state.md` R36, `spec/70_reset_and_hazards.md` R360),
and the arguments that `State.reset` takes. -/

namespace Sys2Proof.Machine

/-- The arguments of the model's own reset state. DESIGN CHOICE (log 2, unsafe): the spec leaves all four open; these are the
ones its test vectors use when they name none. -/
def defaultResetArgs : ResetArgs := { ramSize := 256, image := [], startPc := 0, lrPreset := false }

/-- The register file after Reset: `x[0]` to `x[13]` are 0, `x[14]` the sentinel or 0, `x[15]` is `START_PC` (R36, R360). -/
def resetRegs (a : ResetArgs) : Vector Word 16 :=
  ((Vector.replicate 16 (0 : Word)).set 14 (if a.lrPreset then BitVec.ofNat 32 a.ramSize else 0)).set 15 a.startPc

/-- RAM after Reset: the image from address 0 up, then zeros (R36, R361). -/
def resetRam (a : ResetArgs) : Memory := Memory.ofBytes 0 a.image

end Sys2Proof.Machine
end

