-- ==== Sys2Proof/Machine/State.lean ====
section
/-! DEFINITION. The state of XT-CORE, `(x[0..15], N, Z, C, V, RAM[0..RAM_SIZE-1], fault)` (`spec/10_state.md`), as plain data,
the reasons a step of the model can end without a next state, and the state after Reset. -/

namespace Sys2Proof.Machine

/-- The four condition flags, four independent booleans (R27). -/
structure Flags where
  n : Bool
  z : Bool
  c : Bool
  v : Bool
deriving DecidableEq, Repr

/-- The two causes of a fault; the spec gives names, no numbers (`spec/60_exceptions.md` R330). -/
inductive Cause where
  | decodeGap
  | memoryFault
deriving DecidableEq, Repr

/-- The fault record (`spec/60_exceptions.md` R331). -/
structure FaultRecord where
  cause : Cause
  /-- The tag of the faulting word, or none for a fetch fault. -/
  category : Option Category
  /-- The instruction word, or none for a fetch fault. -/
  word : Option Word
  /-- The offending address as an unbounded integer for a memory fault, none for a decode gap. -/
  address : Option Int
  /-- The address the word was, or was to be, fetched from. -/
  instrAddress : Word
deriving DecidableEq, Repr

/-- The state. -/
structure State where
  /-- `x[0]` to `x[15]`; `x[15]` is the program counter and has no separate copy (R20, R23). -/
  regs : Vector Word 16
  /-- N, Z, C, V (R27). -/
  flags : Flags
  /-- `RAM`, the bytes below `ramSize` (R32). -/
  ram : Memory
  /-- `RAM_SIZE`, the length of RAM: the model's own field for a parameter of Reset, never written by a step (R6, R32). -/
  ramSize : Nat
  /-- The fault latch: none, or one record; cleared by Reset only (R33). -/
  fault : Option FaultRecord
deriving DecidableEq, Repr

/-- Why a step has no next state. A fault of XT-CORE (a decode gap, a memory fault) is NOT one of these: raising it latches a
record in the state, which is a next state (`spec/60_exceptions.md` R334). -/
inductive Fault where
  /-- Raised by `step` when the machine is Halted: `Step` "changes nothing and reports `halted`"
  (`spec/47_fetch_execute.md` R311). Safe: no state is produced where the machine makes no transition. -/
  | halted
deriving DecidableEq, Repr

/-- Why the model has no meaning for an instruction. -/
inductive Refusal where
  /-- Raised by an arm of `exec` whose instruction has no meaning yet; no arm does. Safe: nothing is claimed of it. -/
  | notModelled (mnemonic : String)
deriving DecidableEq, Repr

/-- The outcome of a step or of an instruction. -/
abbrev Result := Host.Outcome State Fault Refusal

/-- The state Reset creates from its arguments (`spec/70_reset_and_hazards.md` R360; `spec/10_state.md` R36). -/
def State.ofReset (a : ResetArgs) : State :=
  { regs := resetRegs a
    flags := ⟨false, false, false, false⟩
    ram := resetRam a
    ramSize := a.ramSize
    fault := none }

/-- Reset: a machine, or none where a precondition fails ("creates no machine", R360). -/
def resetMachine (a : ResetArgs) : Option State := if a.valid then some (State.ofReset a) else none

/-- The machine right after Reset with the model's own arguments (log 2). -/
def State.reset : State := State.ofReset defaultResetArgs

end Sys2Proof.Machine
end

