-- ==== Sys2Proof/Machine/Ops.lean ====
section
/-! DEFINITION. The operations every meaning is written over: reading and writing registers, `MemRead` and `MemWrite` with the
bounds test on unbounded integers (`spec/20_memory.md` R52 to R54), raising a fault (`spec/60_exceptions.md` R334), the
status (`spec/10_state.md` R34), the fetch and the PC advance (`spec/47_fetch_execute.md` R312, R313). -/

namespace Sys2Proof.Machine

/-! ## Registers (R12, R20 to R24) -/

/-- `x[r]`. While an instruction executes, `x[15]` holds `A + 4` (R24). -/
def State.reg (s : State) (r : Reg) : Word := s.regs[r.val]

/-- `x[r] <- v`; no register is hardwired and every bit is kept, those of `x[15]` too (R20, R25). -/
def State.setReg (s : State) (r : Reg) (v : Word) : State := { s with regs := s.regs.set r.val v }

/-- The program counter, `x[15]` (R23). -/
def State.pc (s : State) : Word := s.reg 15

/-- `pc <- v` is `x[15] <- v` (R12). -/
def State.setPc (s : State) (v : Word) : State := s.setReg 15 v

/-- The flags written as a whole. -/
def State.setFlags (s : State) (f : Flags) : State := { s with flags := f }

/-- RAM written as a whole. -/
def State.setRam (s : State) (m : Memory) : State := { s with ram := m }

/-- The 32-bit view of the flags, `N :: Z :: C :: V :: 0^28`, for display; no instruction reads it (R28). -/
def State.flagsWord (s : State) : Word :=
  place1 31 s.flags.n ||| place1 30 s.flags.z ||| place1 29 s.flags.c ||| place1 28 s.flags.v

/-! ## Memory (R52 to R58) -/

/-- The two widths of an access (R57). -/
inductive Width where
  | byte | word
deriving DecidableEq, Repr

/-- The number of bytes of an access. -/
def Width.bytes : Width → Nat
  | .byte => 1
  | .word => 4

/-- Every byte of the access lies in RAM: not (`addr < 0` or `addr + n > RAM_SIZE`), on unbounded integers (R54). -/
def inBounds (ramSize : Nat) (addr : Int) (n : Width) : Bool :=
  decide (0 ≤ addr) && decide (addr + n.bytes ≤ ramSize)

/-- One byte of RAM. -/
def State.byteAt (s : State) (a : Nat) : Byte := s.ram.get a

/-- `RAM[a+3] :: RAM[a+2] :: RAM[a+1] :: RAM[a]` (R52). -/
def Memory.getWord (m : Memory) (a : Nat) : Word :=
  wordOfBytes (m.get a) (m.get (a + 1)) (m.get (a + 2)) (m.get (a + 3))

/-- The four bytes of a word stored from `a` up, low byte first (R53). -/
def Memory.setWord (m : Memory) (a : Nat) (v : Word) : Memory :=
  (((m.set a (v.extractLsb' 0 8)).set (a + 1) (v.extractLsb' 8 8)).set (a + 2) (v.extractLsb' 16 8)).set (a + 3)
    (v.extractLsb' 24 8)

/-- `MemRead(addr, n)`; none where it raises `MemoryFault(addr)` (R52, R54). A byte is zero-extended. -/
def memRead (s : State) (addr : Int) (n : Width) : Option Word :=
  if inBounds s.ramSize addr n then
    some (match n with
      | .byte => (s.ram.get addr.toNat).setWidth 32
      | .word => s.ram.getWord addr.toNat)
  else none

/-- `MemWrite(addr, n, v)`; none where it raises `MemoryFault(addr)`, and then no byte is written (R53, R54). -/
def memWrite (s : State) (addr : Int) (n : Width) (v : Word) : Option State :=
  if inBounds s.ramSize addr n then
    some (match n with
      | .byte => s.setRam (s.ram.set addr.toNat (v.extractLsb' 0 8))
      | .word => s.setRam (s.ram.setWord addr.toNat v))
  else none

/-! ## Faults (R330 to R335) -/

/-- `raise f`: the latch is written and nothing else, the PC included (R334). This is the one way a fault is taken; there is
no return from it (R335). -/
def raise (f : FaultRecord) (s : State) : State := { s with fault := some f }

/-- `instr_address` as an executing instruction finds it: `pc - 4` (R331). DEDUCED, log 4. -/
def State.instrAddress (s : State) : Word := s.pc - 4

/-- The record of a decode gap: `(DecodeGap, tag, w, none, A)` (R332; `spec/46_unimplemented.md` R280). The word is the
instruction's own (DEDUCED, log 4). -/
def decodeGapRecord (cat : Category) (i : Instr) (s : State) : FaultRecord :=
  { cause := .decodeGap, category := some cat, word := some (encode i), address := none, instrAddress := s.instrAddress }

/-- The record of a faulting transfer: `(MemoryFault, SingleDataTransfer, w, addr, A)` (R333). -/
def transferFaultRecord (i : Instr) (addr : Int) (s : State) : FaultRecord :=
  { cause := .memoryFault, category := some .singleDataTransfer, word := some (encode i), address := some addr,
    instrAddress := s.instrAddress }

/-- The record of a faulting fetch: `(MemoryFault, none, none, A, A)` (R333; `spec/47_fetch_execute.md` R312). -/
def fetchFaultRecord (s : State) : FaultRecord :=
  { cause := .memoryFault, category := none, word := none, address := some s.pc.toNat, instrAddress := s.pc }

/-- The decode gap: the dispatcher raises `DecodeGap` for a word of a category without a unit (R280, R332). -/
def decodeGap (cat : Category) (i : Instr) (s : State) : State := raise (decodeGapRecord cat i s) s

/-! ## Status (R34) -/

/-- The two states of the fetch-execute loop (R34). -/
inductive Status where
  | running | halted
deriving DecidableEq, Repr

/-- `Halted` if `fault != none` or `x[15] >= RAM_SIZE`, unsigned (R34). -/
def State.halted (s : State) : Bool := s.fault.isSome || decide (s.ramSize ≤ s.pc.toNat)

/-- The status, a function of the state (R34). -/
def State.status (s : State) : Status := if s.halted then .halted else .running

/-! ## Fetch (R312, R313) -/

/-- The word at the PC; none where the fetch raises `MemoryFault(A)` (R312). -/
def fetch (s : State) : Option Word := memRead s s.pc.toNat .word

/-- The PC advance, `x[15] <- (A + 4) mod 2^32`, before the condition is evaluated (R313). -/
def advancePc (s : State) : State := s.setPc (s.pc + 4)

/-- The state with a word stored where the next fetch reads it. RAM is made long enough for it and the latch is cleared where
the state would not fetch there otherwise; neither changes anything right after Reset (DESIGN CHOICE, log 3). -/
def placeFetchWord (s : State) (w : Word) : State :=
  { s with ram := s.ram.setWord s.pc.toNat w, ramSize := max s.ramSize (s.pc.toNat + 4), fault := none }

end Sys2Proof.Machine
end

