-- ==== Sys2Proof/Machine/Flags.lean ====
section
/-! DEFINITION. The condition evaluator (`spec/40_condition.md`) and every computation that writes a flag: the logical and the
arithmetic group of the data-processing unit (`spec/42_data_processing.md` R171 to R173, R193) and the long multiply
(`spec/45_long_multiply.md` R262). -/

namespace Sys2Proof.Machine

/-- `CondPass(cond, N, Z, C, V)` (R130, R131). -/
def condPass (c : Cond) (f : Flags) : Bool :=
  match c with
  | .eq => f.z
  | .ne => !f.z
  | .cs => f.c
  | .cc => !f.c
  | .mi => f.n
  | .pl => !f.n
  | .vs => f.v
  | .vc => !f.v
  | .hi => f.c && !f.z
  | .ls => !f.c || f.z
  | .ge => f.n == f.v
  | .lt => f.n != f.v
  | .gt => !f.z && f.n == f.v
  | .le => f.z || f.n != f.v
  | .al => true
  | .nv => false

/-- An instruction under its condition: `t`, the state it gives when it runs, or where the condition fails the state `s` it was
given, unchanged beyond the PC advance already made (`spec/47_fetch_execute.md` R314; `spec/46_unimplemented.md` R283). -/
def guarded (c : Cond) (t s : State) : Result := .next (if condPass c s.flags then t else s)

/-- The flags are written if and only if `S = 1` and the field `Rd` is not 15, whatever the opcode (R171). -/
def updatesFlags (sf : Bool) (rd : Reg) : Bool := sf && rd != 15

/-- `C <- sc; Z <- (res == 0); N <- res[31]`, V unchanged (R172). -/
def logicFlags (sc : Bool) (res : Word) (f : Flags) : Flags := { n := res.msb, z := res == 0, c := sc, v := f.v }

/-- What the adder of the arithmetic group yields: 32-bit result, bit 32 of the widened sum, overflow (R173). -/
structure AdderOut where
  res : Word
  cout : Bool
  ovf : Bool
deriving DecidableEq, Repr

/-- The widened sum `u64(X) + u64(Y) + cin` (R173). -/
def wideSum (x y : Word) (cin : Bool) : DWord :=
  x.setWidth 64 + y.setWidth 64 + (BitVec.ofBool cin).setWidth 64

/-- The adder: `res = total[31:0]`, `cout = total[32]`, `ovf` when `X` and `Y` share a sign that `res` has not (R173). -/
def addWithCarry (x y : Word) (cin : Bool) : AdderOut :=
  let res : Word := (wideSum x y cin).extractLsb' 0 32
  { res := res, cout := (wideSum x y cin).getLsbD 32, ovf := x.msb == y.msb && res.msb != x.msb }

/-- `C <- cout; Z <- (res == 0); N <- res[31]; V <- ovf` (R173). -/
def arithFlags (t : AdderOut) : Flags := { n := t.res.msb, z := t.res == 0, c := t.cout, v := t.ovf }

/-- `Z <- (res = 0); N <- res[63]`, C and V untouched (R262). -/
def longFlags (res : DWord) (f : Flags) : Flags := { f with n := res.msb, z := res == 0 }

end Sys2Proof.Machine
end

