-- ==== Sys2Proof/Machine/Branch.lean ====
section
/-! DEFINITION. The branch unit (`spec/44_branch.md`): B and BL. -/

namespace Sys2Proof.Machine

/-- The byte offset, `sext_32(imm24 :: 00)` (`spec/30_encoding.md` R99). -/
def branchOffset (imm24 : BitVec 24) : Word := (imm24 ++ 0#2).signExtend 32

/-- `x[15] <- x[15] + offset + 4`, the PC standing at `A + 4` (R250, R251). -/
def branchTo (imm24 : BitVec 24) (s : State) : State := s.setPc (s.pc + branchOffset imm24 + 4)

/-- `x[14] <- x[15]`, which is `A + 4` (R252). -/
def link (s : State) : State := s.setReg 14 s.pc

/-- B (R253). -/
def execB (c : Cond) (imm24 : BitVec 24) (s : State) : Result := guarded c (branchTo imm24 s) s

/-- BL: the link, then the branch (R254, R252). -/
def execBl (c : Cond) (imm24 : BitVec 24) (s : State) : Result := guarded c (branchTo imm24 (link s)) s

end Sys2Proof.Machine
end

