-- ==== Sys2Proof/Machine/Operands.lean ====
section
/-! DEFINITION. The barrel shifter and the operand forms (`spec/41_shifter.md`), and the offset and index of a transfer
(`spec/43_single_data_transfer.md` R221 to R223). -/

namespace Sys2Proof.Machine

/-! ## The barrel shifter (R140 to R149) -/

/-- All ones if bit 31 is set, else zero: the result of an arithmetic shift by the width or more (R145, R146). -/
def signFill (v : Word) : Word := if v.msb then 0xFFFFFFFF else 0

/-- LSL: carry-out and result (R141, R142). -/
def shiftLsl (cin : Bool) (n : Nat) (v : Word) : Bool × Word :=
  if n = 0 then (cin, v)
  else if n ≤ 31 then (v.getLsbD (32 - n), v <<< n)
  else if n = 32 then (v.getLsbD 0, 0)
  else (false, 0)

/-- LSR: carry-out and result; amount 0 is a shift by 32 (R143, R144). -/
def shiftLsr (n : Nat) (v : Word) : Bool × Word :=
  if n = 0 ∨ n = 32 then (v.getLsbD 31, 0)
  else if n ≤ 31 then (v.getLsbD (n - 1), v >>> n)
  else (false, 0)

/-- ASR: carry-out and result; amount 0 is a shift by 32 (R145, R146). -/
def shiftAsr (n : Nat) (v : Word) : Bool × Word :=
  if n = 0 ∨ 32 ≤ n then (v.getLsbD 31, signFill v)
  else (v.getLsbD (n - 1), v.sshiftRight n)

/-- `ror32(v, k)` for `0 <= k <= 31` (R12). -/
def ror32 (v : Word) (k : Nat) : Word := if k = 0 then v else (v >>> k) ||| (v <<< (32 - k))

/-- ROR: carry-out and result; amount 0 is RRX, through the carry (R147, R148). -/
def shiftRor (cin : Bool) (n : Nat) (v : Word) : Bool × Word :=
  if n = 0 then (v.getLsbD 0, place1 31 cin ||| (v >>> 1))
  else ((ror32 v (n % 32)).getLsbD 31, ror32 v (n % 32))

/-- `Shift(cin, mode, n, v)` for `n` in 0 to 255; it does not know where the amount came from (R140, R149, R150). -/
def shift (cin : Bool) (mode : ShiftMode) (n : Nat) (v : Word) : Bool × Word :=
  match mode with
  | .lsl => shiftLsl cin n v
  | .lsr => shiftLsr n v
  | .asr => shiftAsr n v
  | .ror => shiftRor cin n v

/-! ## Operand 2 of the data-processing unit (R152, R153): shifter carry-out and value -/

/-- The immediate operand, `ImmOperand(cin, rot, imm8)` (R152). -/
def immOperand (o : RotImm) (s : State) : Bool × Word :=
  let v : Word := o.imm8.setWidth 32
  if o.rot = 0 then (s.flags.c, v) else ((ror32 v (2 * o.rot.toNat)).getLsbD 31, ror32 v (2 * o.rot.toNat))

/-- A register shifted by an immediate amount, 0 to 31 (R153, R93). -/
def shiftImmOperand (o : ShiftImm) (s : State) : Bool × Word := shift s.flags.c o.mode o.amount.toNat (s.reg o.rm)

/-- A register shifted by the low byte of another register, 0 to 255 (R153, R94). -/
def shiftRegOperand (o : ShiftReg) (s : State) : Bool × Word :=
  shift s.flags.c o.mode ((s.reg o.rs).extractLsb' 0 8).toNat (s.reg o.rm)

/-! ## The offset and the addresses of a single data transfer (R221 to R224) -/

/-- The immediate offset, zero-extended (R221). -/
def immOffset (imm12 : BitVec 12) : Word := imm12.setWidth 32

/-- The register offset: the value part of the shift, the carry-out is not consumed (R221, R151). -/
def regOffset (o : ShiftImm) (s : State) : Word := (shiftImmOperand o s).2

/-- The indexed address as an unbounded integer (R222). -/
def indexedAddress (ix : Indexing) (base off : Word) : Int :=
  if ix.u then (base.toNat : Int) + off.toNat else (base.toNat : Int) - off.toNat

/-- The transfer address: the indexed address if pre-indexed, else the base (R223). -/
def transferAddress (ix : Indexing) (base off : Word) : Int :=
  if ix.p then indexedAddress ix base off else base.toNat

/-- Whether the base register is written: post-indexed, or pre-indexed with the write-back bit (R224). -/
def writesBack (ix : Indexing) : Bool := !ix.p || ix.w

/-- The value written back to the base register, the indexed address modulo `2^32` (R224). -/
def writeBackValue (ix : Indexing) (base off : Word) : Word := BitVec.ofInt 32 (indexedAddress ix base off)

end Sys2Proof.Machine
end

