-- ==== Sys2Proof/Machine/DataProcessing.lean ====
section
/-! DEFINITION. The data-processing unit (`spec/42_data_processing.md`): the two ways a result lands (R170 to R173), one
operation for each of the sixteen opcodes (R174 to R189), and the meaning of each of its instructions, one for each operand
form. Operand 2 comes as the pair (shifter carry-out, value) of R153. -/

namespace Sys2Proof.Machine

/-! ## Where a result lands (R170) -/

/-- The flag update of the logical group (R171, R172). -/
def setLogicFlags (sf : Bool) (rd : Reg) (sc : Bool) (res : Word) (s : State) : State :=
  s.setFlags (if updatesFlags sf rd then logicFlags sc res s.flags else s.flags)

/-- The flag update of the arithmetic group (R171, R173). -/
def setArithFlags (sf : Bool) (rd : Reg) (t : AdderOut) (s : State) : State :=
  s.setFlags (if updatesFlags sf rd then arithFlags t else s.flags)

/-- A logical opcode that writes `Rd` (R170, R172). -/
def logicResult (sf : Bool) (rd : Reg) (sc : Bool) (res : Word) (s : State) : State :=
  (setLogicFlags sf rd sc res s).setReg rd res

/-- An arithmetic opcode that writes `Rd` (R170, R173). -/
def arithResult (sf : Bool) (rd : Reg) (t : AdderOut) (s : State) : State := (setArithFlags sf rd t s).setReg rd t.res

/-! ## The sixteen opcodes -/

/-- AND: `res = x[Rn] & op2` (R174). -/
def andOp (sf : Bool) (rn rd : Reg) (o : Bool × Word) (s : State) : State := logicResult sf rd o.1 (s.reg rn &&& o.2) s

/-- EOR: `res = x[Rn] ^ op2` (R175). -/
def eorOp (sf : Bool) (rn rd : Reg) (o : Bool × Word) (s : State) : State := logicResult sf rd o.1 (s.reg rn ^^^ o.2) s

/-- SUB: `x[Rn] + ~op2 + 1` (R176). -/
def subOp (sf : Bool) (rn rd : Reg) (o : Bool × Word) (s : State) : State := arithResult sf rd (addWithCarry (s.reg rn) (~~~o.2) true) s

/-- RSB: `op2 + ~x[Rn] + 1` (R177). -/
def rsbOp (sf : Bool) (rn rd : Reg) (o : Bool × Word) (s : State) : State := arithResult sf rd (addWithCarry o.2 (~~~s.reg rn) true) s

/-- ADD: `x[Rn] + op2` (R178). -/
def addOp (sf : Bool) (rn rd : Reg) (o : Bool × Word) (s : State) : State := arithResult sf rd (addWithCarry (s.reg rn) o.2 false) s

/-- ADC: `x[Rn] + op2 + C` (R179). -/
def adcOp (sf : Bool) (rn rd : Reg) (o : Bool × Word) (s : State) : State := arithResult sf rd (addWithCarry (s.reg rn) o.2 s.flags.c) s

/-- SBC: `x[Rn] + ~op2 + C` (R180). -/
def sbcOp (sf : Bool) (rn rd : Reg) (o : Bool × Word) (s : State) : State := arithResult sf rd (addWithCarry (s.reg rn) (~~~o.2) s.flags.c) s

/-- RSC: `op2 + ~x[Rn] + C` (R181). -/
def rscOp (sf : Bool) (rn rd : Reg) (o : Bool × Word) (s : State) : State := arithResult sf rd (addWithCarry o.2 (~~~s.reg rn) s.flags.c) s

/-- TST: the flags of `x[Rn] & op2`, nothing written (R182). -/
def tstOp (sf : Bool) (rn rd : Reg) (o : Bool × Word) (s : State) : State := setLogicFlags sf rd o.1 (s.reg rn &&& o.2) s

/-- TEQ: the flags of `x[Rn] ^ op2`, nothing written (R183). -/
def teqOp (sf : Bool) (rn rd : Reg) (o : Bool × Word) (s : State) : State := setLogicFlags sf rd o.1 (s.reg rn ^^^ o.2) s

/-- CMP: the flags of `x[Rn] + ~op2 + 1`, nothing written (R184). -/
def cmpOp (sf : Bool) (rn rd : Reg) (o : Bool × Word) (s : State) : State := setArithFlags sf rd (addWithCarry (s.reg rn) (~~~o.2) true) s

/-- CMN: the flags of `x[Rn] + op2`, nothing written (R185). -/
def cmnOp (sf : Bool) (rn rd : Reg) (o : Bool × Word) (s : State) : State := setArithFlags sf rd (addWithCarry (s.reg rn) o.2 false) s

/-- ORR: `res = x[Rn] | op2` (R186). -/
def orrOp (sf : Bool) (rn rd : Reg) (o : Bool × Word) (s : State) : State := logicResult sf rd o.1 (s.reg rn ||| o.2) s

/-- MOV: `res = op2`, `Rn` is not read (R187). -/
def movOp (sf : Bool) (_rn rd : Reg) (o : Bool × Word) (s : State) : State := logicResult sf rd o.1 (o.2) s

/-- BIC: `res = x[Rn] & ~op2` (R188). -/
def bicOp (sf : Bool) (rn rd : Reg) (o : Bool × Word) (s : State) : State := logicResult sf rd o.1 (s.reg rn &&& ~~~o.2) s

/-- MVN: `res = ~op2`, `Rn` is not read (R189). -/
def mvnOp (sf : Bool) (_rn rd : Reg) (o : Bool × Word) (s : State) : State := logicResult sf rd o.1 (~~~o.2) s

/-! ## The instructions -/

/-- AND, immediate operand (R174). -/
def execAndImm (c : Cond) (sf : Bool) (rn rd : Reg) (o : RotImm) (s : State) : Result :=
  guarded c (andOp sf rn rd (immOperand o s) s) s

/-- AND, register operand shifted by an immediate (R174). -/
def execAndShiftImm (c : Cond) (sf : Bool) (rn rd : Reg) (o : ShiftImm) (s : State) : Result :=
  guarded c (andOp sf rn rd (shiftImmOperand o s) s) s

/-- AND, register operand shifted by a register (R174). -/
def execAndShiftReg (c : Cond) (sf : Bool) (rn rd : Reg) (o : ShiftReg) (s : State) : Result :=
  guarded c (andOp sf rn rd (shiftRegOperand o s) s) s

/-- EOR, immediate operand (R175). -/
def execEorImm (c : Cond) (sf : Bool) (rn rd : Reg) (o : RotImm) (s : State) : Result :=
  guarded c (eorOp sf rn rd (immOperand o s) s) s

/-- EOR, register operand shifted by an immediate (R175). -/
def execEorShiftImm (c : Cond) (sf : Bool) (rn rd : Reg) (o : ShiftImm) (s : State) : Result :=
  guarded c (eorOp sf rn rd (shiftImmOperand o s) s) s

/-- EOR, register operand shifted by a register (R175). -/
def execEorShiftReg (c : Cond) (sf : Bool) (rn rd : Reg) (o : ShiftReg) (s : State) : Result :=
  guarded c (eorOp sf rn rd (shiftRegOperand o s) s) s

/-- SUB, immediate operand (R176). -/
def execSubImm (c : Cond) (sf : Bool) (rn rd : Reg) (o : RotImm) (s : State) : Result :=
  guarded c (subOp sf rn rd (immOperand o s) s) s

/-- SUB, register operand shifted by an immediate (R176). -/
def execSubShiftImm (c : Cond) (sf : Bool) (rn rd : Reg) (o : ShiftImm) (s : State) : Result :=
  guarded c (subOp sf rn rd (shiftImmOperand o s) s) s

/-- SUB, register operand shifted by a register (R176). -/
def execSubShiftReg (c : Cond) (sf : Bool) (rn rd : Reg) (o : ShiftReg) (s : State) : Result :=
  guarded c (subOp sf rn rd (shiftRegOperand o s) s) s

/-- RSB, immediate operand (R177). -/
def execRsbImm (c : Cond) (sf : Bool) (rn rd : Reg) (o : RotImm) (s : State) : Result :=
  guarded c (rsbOp sf rn rd (immOperand o s) s) s

/-- RSB, register operand shifted by an immediate (R177). -/
def execRsbShiftImm (c : Cond) (sf : Bool) (rn rd : Reg) (o : ShiftImm) (s : State) : Result :=
  guarded c (rsbOp sf rn rd (shiftImmOperand o s) s) s

/-- RSB, register operand shifted by a register (R177). -/
def execRsbShiftReg (c : Cond) (sf : Bool) (rn rd : Reg) (o : ShiftReg) (s : State) : Result :=
  guarded c (rsbOp sf rn rd (shiftRegOperand o s) s) s

/-- ADD, immediate operand (R178). -/
def execAddImm (c : Cond) (sf : Bool) (rn rd : Reg) (o : RotImm) (s : State) : Result :=
  guarded c (addOp sf rn rd (immOperand o s) s) s

/-- ADD, register operand shifted by an immediate (R178). -/
def execAddShiftImm (c : Cond) (sf : Bool) (rn rd : Reg) (o : ShiftImm) (s : State) : Result :=
  guarded c (addOp sf rn rd (shiftImmOperand o s) s) s

/-- ADD, register operand shifted by a register (R178). -/
def execAddShiftReg (c : Cond) (sf : Bool) (rn rd : Reg) (o : ShiftReg) (s : State) : Result :=
  guarded c (addOp sf rn rd (shiftRegOperand o s) s) s

/-- ADC, immediate operand (R179). -/
def execAdcImm (c : Cond) (sf : Bool) (rn rd : Reg) (o : RotImm) (s : State) : Result :=
  guarded c (adcOp sf rn rd (immOperand o s) s) s

/-- ADC, register operand shifted by an immediate (R179). -/
def execAdcShiftImm (c : Cond) (sf : Bool) (rn rd : Reg) (o : ShiftImm) (s : State) : Result :=
  guarded c (adcOp sf rn rd (shiftImmOperand o s) s) s

/-- ADC, register operand shifted by a register (R179). -/
def execAdcShiftReg (c : Cond) (sf : Bool) (rn rd : Reg) (o : ShiftReg) (s : State) : Result :=
  guarded c (adcOp sf rn rd (shiftRegOperand o s) s) s

/-- SBC, immediate operand (R180). -/
def execSbcImm (c : Cond) (sf : Bool) (rn rd : Reg) (o : RotImm) (s : State) : Result :=
  guarded c (sbcOp sf rn rd (immOperand o s) s) s

/-- SBC, register operand shifted by an immediate (R180). -/
def execSbcShiftImm (c : Cond) (sf : Bool) (rn rd : Reg) (o : ShiftImm) (s : State) : Result :=
  guarded c (sbcOp sf rn rd (shiftImmOperand o s) s) s

/-- SBC, register operand shifted by a register (R180). -/
def execSbcShiftReg (c : Cond) (sf : Bool) (rn rd : Reg) (o : ShiftReg) (s : State) : Result :=
  guarded c (sbcOp sf rn rd (shiftRegOperand o s) s) s

/-- RSC, immediate operand (R181). -/
def execRscImm (c : Cond) (sf : Bool) (rn rd : Reg) (o : RotImm) (s : State) : Result :=
  guarded c (rscOp sf rn rd (immOperand o s) s) s

/-- RSC, register operand shifted by an immediate (R181). -/
def execRscShiftImm (c : Cond) (sf : Bool) (rn rd : Reg) (o : ShiftImm) (s : State) : Result :=
  guarded c (rscOp sf rn rd (shiftImmOperand o s) s) s

/-- RSC, register operand shifted by a register (R181). -/
def execRscShiftReg (c : Cond) (sf : Bool) (rn rd : Reg) (o : ShiftReg) (s : State) : Result :=
  guarded c (rscOp sf rn rd (shiftRegOperand o s) s) s

/-- TST, immediate operand (R182). -/
def execTstImm (c : Cond) (rn rd : Reg) (o : RotImm) (s : State) : Result :=
  guarded c (tstOp true rn rd (immOperand o s) s) s

/-- TST_S0, immediate operand (R190). -/
def execTstS0Imm (c : Cond) (rn rd : Reg) (o : RotImm) (s : State) : Result :=
  guarded c (tstOp false rn rd (immOperand o s) s) s

/-- TST, register operand shifted by an immediate (R182). -/
def execTstShiftImm (c : Cond) (rn rd : Reg) (o : ShiftImm) (s : State) : Result :=
  guarded c (tstOp true rn rd (shiftImmOperand o s) s) s

/-- TST_S0, register operand shifted by an immediate (R190). -/
def execTstS0ShiftImm (c : Cond) (rn rd : Reg) (o : ShiftImm) (s : State) : Result :=
  guarded c (tstOp false rn rd (shiftImmOperand o s) s) s

/-- TST, register operand shifted by a register (R182). -/
def execTstShiftReg (c : Cond) (rn rd : Reg) (o : ShiftReg) (s : State) : Result :=
  guarded c (tstOp true rn rd (shiftRegOperand o s) s) s

/-- TST_S0, register operand shifted by a register (R190). -/
def execTstS0ShiftReg (c : Cond) (rn rd : Reg) (o : ShiftReg) (s : State) : Result :=
  guarded c (tstOp false rn rd (shiftRegOperand o s) s) s

/-- TEQ, immediate operand (R183). -/
def execTeqImm (c : Cond) (rn rd : Reg) (o : RotImm) (s : State) : Result :=
  guarded c (teqOp true rn rd (immOperand o s) s) s

/-- TEQ_S0, immediate operand (R190). -/
def execTeqS0Imm (c : Cond) (rn rd : Reg) (o : RotImm) (s : State) : Result :=
  guarded c (teqOp false rn rd (immOperand o s) s) s

/-- TEQ, register operand shifted by an immediate (R183). -/
def execTeqShiftImm (c : Cond) (rn rd : Reg) (o : ShiftImm) (s : State) : Result :=
  guarded c (teqOp true rn rd (shiftImmOperand o s) s) s

/-- TEQ_S0, register operand shifted by an immediate (R190). -/
def execTeqS0ShiftImm (c : Cond) (rn rd : Reg) (o : ShiftImm) (s : State) : Result :=
  guarded c (teqOp false rn rd (shiftImmOperand o s) s) s

/-- TEQ, register operand shifted by a register (R183). -/
def execTeqShiftReg (c : Cond) (rn rd : Reg) (o : ShiftReg) (s : State) : Result :=
  guarded c (teqOp true rn rd (shiftRegOperand o s) s) s

/-- TEQ_S0, register operand shifted by a register (R190). -/
def execTeqS0ShiftReg (c : Cond) (rn rd : Reg) (o : ShiftReg) (s : State) : Result :=
  guarded c (teqOp false rn rd (shiftRegOperand o s) s) s

/-- CMP, immediate operand (R184). -/
def execCmpImm (c : Cond) (rn rd : Reg) (o : RotImm) (s : State) : Result :=
  guarded c (cmpOp true rn rd (immOperand o s) s) s

/-- CMP_S0, immediate operand (R190). -/
def execCmpS0Imm (c : Cond) (rn rd : Reg) (o : RotImm) (s : State) : Result :=
  guarded c (cmpOp false rn rd (immOperand o s) s) s

/-- CMP, register operand shifted by an immediate (R184). -/
def execCmpShiftImm (c : Cond) (rn rd : Reg) (o : ShiftImm) (s : State) : Result :=
  guarded c (cmpOp true rn rd (shiftImmOperand o s) s) s

/-- CMP_S0, register operand shifted by an immediate (R190). -/
def execCmpS0ShiftImm (c : Cond) (rn rd : Reg) (o : ShiftImm) (s : State) : Result :=
  guarded c (cmpOp false rn rd (shiftImmOperand o s) s) s

/-- CMP, register operand shifted by a register (R184). -/
def execCmpShiftReg (c : Cond) (rn rd : Reg) (o : ShiftReg) (s : State) : Result :=
  guarded c (cmpOp true rn rd (shiftRegOperand o s) s) s

/-- CMP_S0, register operand shifted by a register (R190). -/
def execCmpS0ShiftReg (c : Cond) (rn rd : Reg) (o : ShiftReg) (s : State) : Result :=
  guarded c (cmpOp false rn rd (shiftRegOperand o s) s) s

/-- CMN, immediate operand (R185). -/
def execCmnImm (c : Cond) (rn rd : Reg) (o : RotImm) (s : State) : Result :=
  guarded c (cmnOp true rn rd (immOperand o s) s) s

/-- CMN_S0, immediate operand (R190). -/
def execCmnS0Imm (c : Cond) (rn rd : Reg) (o : RotImm) (s : State) : Result :=
  guarded c (cmnOp false rn rd (immOperand o s) s) s

/-- CMN, register operand shifted by an immediate (R185). -/
def execCmnShiftImm (c : Cond) (rn rd : Reg) (o : ShiftImm) (s : State) : Result :=
  guarded c (cmnOp true rn rd (shiftImmOperand o s) s) s

/-- CMN_S0, register operand shifted by an immediate (R190). -/
def execCmnS0ShiftImm (c : Cond) (rn rd : Reg) (o : ShiftImm) (s : State) : Result :=
  guarded c (cmnOp false rn rd (shiftImmOperand o s) s) s

/-- CMN, register operand shifted by a register (R185). -/
def execCmnShiftReg (c : Cond) (rn rd : Reg) (o : ShiftReg) (s : State) : Result :=
  guarded c (cmnOp true rn rd (shiftRegOperand o s) s) s

/-- CMN_S0, register operand shifted by a register (R190). -/
def execCmnS0ShiftReg (c : Cond) (rn rd : Reg) (o : ShiftReg) (s : State) : Result :=
  guarded c (cmnOp false rn rd (shiftRegOperand o s) s) s

/-- ORR, immediate operand (R186). -/
def execOrrImm (c : Cond) (sf : Bool) (rn rd : Reg) (o : RotImm) (s : State) : Result :=
  guarded c (orrOp sf rn rd (immOperand o s) s) s

/-- ORR, register operand shifted by an immediate (R186). -/
def execOrrShiftImm (c : Cond) (sf : Bool) (rn rd : Reg) (o : ShiftImm) (s : State) : Result :=
  guarded c (orrOp sf rn rd (shiftImmOperand o s) s) s

/-- ORR, register operand shifted by a register (R186). -/
def execOrrShiftReg (c : Cond) (sf : Bool) (rn rd : Reg) (o : ShiftReg) (s : State) : Result :=
  guarded c (orrOp sf rn rd (shiftRegOperand o s) s) s

/-- MOV, immediate operand (R187). -/
def execMovImm (c : Cond) (sf : Bool) (rn rd : Reg) (o : RotImm) (s : State) : Result :=
  guarded c (movOp sf rn rd (immOperand o s) s) s

/-- MOV, register operand shifted by an immediate (R187). -/
def execMovShiftImm (c : Cond) (sf : Bool) (rn rd : Reg) (o : ShiftImm) (s : State) : Result :=
  guarded c (movOp sf rn rd (shiftImmOperand o s) s) s

/-- MOV, register operand shifted by a register (R187). -/
def execMovShiftReg (c : Cond) (sf : Bool) (rn rd : Reg) (o : ShiftReg) (s : State) : Result :=
  guarded c (movOp sf rn rd (shiftRegOperand o s) s) s

/-- BIC, immediate operand (R188). -/
def execBicImm (c : Cond) (sf : Bool) (rn rd : Reg) (o : RotImm) (s : State) : Result :=
  guarded c (bicOp sf rn rd (immOperand o s) s) s

/-- BIC, register operand shifted by an immediate (R188). -/
def execBicShiftImm (c : Cond) (sf : Bool) (rn rd : Reg) (o : ShiftImm) (s : State) : Result :=
  guarded c (bicOp sf rn rd (shiftImmOperand o s) s) s

/-- BIC, register operand shifted by a register (R188). -/
def execBicShiftReg (c : Cond) (sf : Bool) (rn rd : Reg) (o : ShiftReg) (s : State) : Result :=
  guarded c (bicOp sf rn rd (shiftRegOperand o s) s) s

/-- MVN, immediate operand (R189). -/
def execMvnImm (c : Cond) (sf : Bool) (rn rd : Reg) (o : RotImm) (s : State) : Result :=
  guarded c (mvnOp sf rn rd (immOperand o s) s) s

/-- MVN, register operand shifted by an immediate (R189). -/
def execMvnShiftImm (c : Cond) (sf : Bool) (rn rd : Reg) (o : ShiftImm) (s : State) : Result :=
  guarded c (mvnOp sf rn rd (shiftImmOperand o s) s) s

/-- MVN, register operand shifted by a register (R189). -/
def execMvnShiftReg (c : Cond) (sf : Bool) (rn rd : Reg) (o : ShiftReg) (s : State) : Result :=
  guarded c (mvnOp sf rn rd (shiftRegOperand o s) s) s

end Sys2Proof.Machine
end

