-- ==== Sys2Proof/Machine/DecodeGap.lean ====
section
/-! DEFINITION. The instructions whose category has no execution unit (`spec/46_unimplemented.md`). Their effect is the decode
gap (R280): the fault record is latched, the machine is Halted from then on, and nothing else changes. A failing condition
skips the word (R283). No field of the word is read but to name it in the record (R101). -/

namespace Sys2Proof.Machine

/-- BX: raises `DecodeGap`, category `BranchExchange` (R286, R280). -/
def execBx (c : Cond) (rn : Reg) (s : State) : Result :=
  guarded c (decodeGap .branchExchange (.bx c rn) s) s

/-- MRS: raises `DecodeGap`, category `MRS` (R294, R280). -/
def execMrs (c : Cond) (ps : Bool) (rd : Reg) (s : State) : Result :=
  guarded c (decodeGap .mrs (.mrs c ps rd) s) s

/-- MSR: raises `DecodeGap`, category `MSR` (R295, R280). -/
def execMsr (c : Cond) (pd : Bool) (rm : Reg) (s : State) : Result :=
  guarded c (decodeGap .msr (.msr c pd rm) s) s

/-- SWP: raises `DecodeGap`, category `SingleDataSwap` (R284, R280). -/
def execSwp (c : Cond) (rn rd rm : Reg) (s : State) : Result :=
  guarded c (decodeGap .singleDataSwap (.swp c rn rd rm) s) s

/-- SWPB: raises `DecodeGap`, category `SingleDataSwap` (R285, R280). -/
def execSwpb (c : Cond) (rn rd rm : Reg) (s : State) : Result :=
  guarded c (decodeGap .singleDataSwap (.swpb c rn rd rm) s) s

/-- MSR_FLAGS: raises `DecodeGap`, category `MSRFlags` (R302, R280). -/
def execMsrFlags (c : Cond) (im pd : Bool) (operand : BitVec 12) (s : State) : Result :=
  guarded c (decodeGap .msrFlags (.msrFlags c im pd operand) s) s

/-- STRH: raises `DecodeGap`, category `HalfWordTransferRegister` (R287, R280). -/
def execStrhReg (c : Cond) (ix : Indexing) (rn rd rm : Reg) (s : State) : Result :=
  guarded c (decodeGap .halfWordTransferRegister (.strhReg c ix rn rd rm) s) s

/-- LDRH: raises `DecodeGap`, category `HalfWordTransferRegister` (R288, R280). -/
def execLdrhReg (c : Cond) (ix : Indexing) (rn rd rm : Reg) (s : State) : Result :=
  guarded c (decodeGap .halfWordTransferRegister (.ldrhReg c ix rn rd rm) s) s

/-- LDRSB: raises `DecodeGap`, category `HalfWordTransferRegister` (R289, R280). -/
def execLdrsbReg (c : Cond) (ix : Indexing) (rn rd rm : Reg) (s : State) : Result :=
  guarded c (decodeGap .halfWordTransferRegister (.ldrsbReg c ix rn rd rm) s) s

/-- LDRSH: raises `DecodeGap`, category `HalfWordTransferRegister` (R290, R280). -/
def execLdrshReg (c : Cond) (ix : Indexing) (rn rd rm : Reg) (s : State) : Result :=
  guarded c (decodeGap .halfWordTransferRegister (.ldrshReg c ix rn rd rm) s) s

/-- HWRESERVED: raises `DecodeGap`, category `HalfWordTransferRegister` (R291, R280). -/
def execHwReservedRegSh2 (c : Cond) (ix : Indexing) (rn rd rm : Reg) (s : State) : Result :=
  guarded c (decodeGap .halfWordTransferRegister (.hwReservedRegSh2 c ix rn rd rm) s) s

/-- HWRESERVED: raises `DecodeGap`, category `HalfWordTransferRegister` (R291, R280). -/
def execHwReservedRegSh3 (c : Cond) (ix : Indexing) (rn rd rm : Reg) (s : State) : Result :=
  guarded c (decodeGap .halfWordTransferRegister (.hwReservedRegSh3 c ix rn rd rm) s) s

/-- MUL: raises `DecodeGap`, category `Multiply` (R281, R280). -/
def execMul (c : Cond) (sf : Bool) (rd rn rs rm : Reg) (s : State) : Result :=
  guarded c (decodeGap .multiply (.mul c sf rd rn rs rm) s) s

/-- MLA: raises `DecodeGap`, category `Multiply` (R282, R280). -/
def execMla (c : Cond) (sf : Bool) (rd rn rs rm : Reg) (s : State) : Result :=
  guarded c (decodeGap .multiply (.mla c sf rd rn rs rm) s) s

/-- STRH: raises `DecodeGap`, category `HalfWordTransferImmediate` (R287, R280). -/
def execStrhImm (c : Cond) (ix : Indexing) (rn rd : Reg) (offHi offLo : BitVec 4) (s : State) : Result :=
  guarded c (decodeGap .halfWordTransferImmediate (.strhImm c ix rn rd offHi offLo) s) s

/-- LDRH: raises `DecodeGap`, category `HalfWordTransferImmediate` (R288, R280). -/
def execLdrhImm (c : Cond) (ix : Indexing) (rn rd : Reg) (offHi offLo : BitVec 4) (s : State) : Result :=
  guarded c (decodeGap .halfWordTransferImmediate (.ldrhImm c ix rn rd offHi offLo) s) s

/-- LDRSB: raises `DecodeGap`, category `HalfWordTransferImmediate` (R289, R280). -/
def execLdrsbImm (c : Cond) (ix : Indexing) (rn rd : Reg) (offHi offLo : BitVec 4) (s : State) : Result :=
  guarded c (decodeGap .halfWordTransferImmediate (.ldrsbImm c ix rn rd offHi offLo) s) s

/-- LDRSH: raises `DecodeGap`, category `HalfWordTransferImmediate` (R290, R280). -/
def execLdrshImm (c : Cond) (ix : Indexing) (rn rd : Reg) (offHi offLo : BitVec 4) (s : State) : Result :=
  guarded c (decodeGap .halfWordTransferImmediate (.ldrshImm c ix rn rd offHi offLo) s) s

/-- HWRESERVED: raises `DecodeGap`, category `HalfWordTransferImmediate` (R291, R280). -/
def execHwReservedImmSh2 (c : Cond) (ix : Indexing) (rn rd : Reg) (offHi offLo : BitVec 4) (s : State) : Result :=
  guarded c (decodeGap .halfWordTransferImmediate (.hwReservedImmSh2 c ix rn rd offHi offLo) s) s

/-- HWRESERVED: raises `DecodeGap`, category `HalfWordTransferImmediate` (R291, R280). -/
def execHwReservedImmSh3 (c : Cond) (ix : Indexing) (rn rd : Reg) (offHi offLo : BitVec 4) (s : State) : Result :=
  guarded c (decodeGap .halfWordTransferImmediate (.hwReservedImmSh3 c ix rn rd offHi offLo) s) s

/-- CDP: raises `DecodeGap`, category `CoprocDataOperation` (R298, R280). -/
def execCdp (c : Cond) (opc crn crd cpNum : BitVec 4) (cp : BitVec 3) (crm : BitVec 4) (s : State) : Result :=
  guarded c (decodeGap .coprocDataOperation (.cdp c opc crn crd cpNum cp crm) s) s

/-- MRC: raises `DecodeGap`, category `CoprocRegisterTransfer` (R299, R280). -/
def execMrc (c : Cond) (opc : BitVec 3) (crn : BitVec 4) (rd : Reg) (cpNum : BitVec 4) (cp : BitVec 3) (crm : BitVec 4) (s : State) : Result :=
  guarded c (decodeGap .coprocRegisterTransfer (.mrc c opc crn rd cpNum cp crm) s) s

/-- MCR: raises `DecodeGap`, category `CoprocRegisterTransfer` (R300, R280). -/
def execMcr (c : Cond) (opc : BitVec 3) (crn : BitVec 4) (rd : Reg) (cpNum : BitVec 4) (cp : BitVec 3) (crm : BitVec 4) (s : State) : Result :=
  guarded c (decodeGap .coprocRegisterTransfer (.mcr c opc crn rd cpNum cp crm) s) s

/-- UNDEFINED: raises `DecodeGap`, category `Undefined` (R303, R280). -/
def execUndefined (c : Cond) (xHi : BitVec 20) (xLo : BitVec 4) (s : State) : Result :=
  guarded c (decodeGap .undefined (.undefined c xHi xLo) s) s

/-- SWI: raises `DecodeGap`, category `SoftwareInterrupt` (R301, R280). -/
def execSwi (c : Cond) (comment : BitVec 24) (s : State) : Result :=
  guarded c (decodeGap .softwareInterrupt (.swi c comment) s) s

/-- LDM: raises `DecodeGap`, category `BlockDataTransfer` (R292, R280). -/
def execLdm (c : Cond) (ix : Indexing) (psr : Bool) (rn : Reg) (regList : BitVec 16) (s : State) : Result :=
  guarded c (decodeGap .blockDataTransfer (.ldm c ix psr rn regList) s) s

/-- STM: raises `DecodeGap`, category `BlockDataTransfer` (R293, R280). -/
def execStm (c : Cond) (ix : Indexing) (psr : Bool) (rn : Reg) (regList : BitVec 16) (s : State) : Result :=
  guarded c (decodeGap .blockDataTransfer (.stm c ix psr rn regList) s) s

/-- LDC: raises `DecodeGap`, category `CoprocDataTransfer` (R296, R280). -/
def execLdc (c : Cond) (ix : Indexing) (nbit : Bool) (rn : Reg) (crd cpNum : BitVec 4) (offset8 : BitVec 8) (s : State) : Result :=
  guarded c (decodeGap .coprocDataTransfer (.ldc c ix nbit rn crd cpNum offset8) s) s

/-- STC: raises `DecodeGap`, category `CoprocDataTransfer` (R297, R280). -/
def execStc (c : Cond) (ix : Indexing) (nbit : Bool) (rn : Reg) (crd cpNum : BitVec 4) (offset8 : BitVec 8) (s : State) : Result :=
  guarded c (decodeGap .coprocDataTransfer (.stc c ix nbit rn crd cpNum offset8) s) s

end Sys2Proof.Machine
end

