-- ==== Sys2Proof/Machine/LongMultiply.lean ====
section
/-! DEFINITION. The long-multiply unit (`spec/45_long_multiply.md`): UMULL, UMLAL, SMULL, SMLAL. The correct product of the two
distinct operands, not what the reference software computes (R265). -/

namespace Sys2Proof.Machine

/-- The exact integer product of two unsigned operands (R260, R261). -/
def unsignedProduct (a b : Word) : Int := (a.toNat : Int) * b.toNat

/-- The exact integer product of two signed operands (R260, R261). -/
def signedProduct (a b : Word) : Int := a.toInt * b.toInt

/-- The accumulator `x[RdHi] :: x[RdLo]`, read before the instruction (R264). -/
def accumulator (rdHi rdLo : Reg) (s : State) : DWord := s.reg rdHi ++ s.reg rdLo

/-- `res` lands: `x[RdLo]` first, `x[RdHi]` second, and with `S = 1` the flags N and Z, also where a destination is register 15
(R260, R262, R263). -/
def longResult (sf : Bool) (rdHi rdLo : Reg) (res : DWord) (s : State) : State :=
  ((s.setFlags (if sf then longFlags res s.flags else s.flags)).setReg rdLo (res.extractLsb' 0 32)).setReg rdHi
    (res.extractLsb' 32 32)

/-- UMULL (R267). -/
def execUmull (c : Cond) (sf : Bool) (rdHi rdLo rs rm : Reg) (s : State) : Result :=
  guarded c (longResult sf rdHi rdLo (BitVec.ofInt 64 (unsignedProduct (s.reg rm) (s.reg rs))) s) s

/-- UMLAL (R268). -/
def execUmlal (c : Cond) (sf : Bool) (rdHi rdLo rs rm : Reg) (s : State) : Result :=
  guarded c (longResult sf rdHi rdLo (BitVec.ofInt 64 (unsignedProduct (s.reg rm) (s.reg rs) + (accumulator rdHi rdLo s).toNat)) s) s

/-- SMULL (R269). -/
def execSmull (c : Cond) (sf : Bool) (rdHi rdLo rs rm : Reg) (s : State) : Result :=
  guarded c (longResult sf rdHi rdLo (BitVec.ofInt 64 (signedProduct (s.reg rm) (s.reg rs))) s) s

/-- SMLAL (R270). -/
def execSmlal (c : Cond) (sf : Bool) (rdHi rdLo rs rm : Reg) (s : State) : Result :=
  guarded c (longResult sf rdHi rdLo (BitVec.ofInt 64 (signedProduct (s.reg rm) (s.reg rs) + (accumulator rdHi rdLo s).toNat)) s) s

end Sys2Proof.Machine
end

