-- ==== Sys2Proof/Machine/Transfer.lean ====
section
/-! DEFINITION. The memory transfer unit (`spec/43_single_data_transfer.md`): LDR, STR, LDRB, STRB with an immediate or a
shifted-register offset. Every address is computed and tested before the first write (R230). -/

namespace Sys2Proof.Machine

/-- The base write-back, after the transfer and after a load's write of `x[Rd]` (R224, R231). -/
def writeBackBase (ix : Indexing) (rn : Reg) (base off : Word) (s : State) : State :=
  if writesBack ix then s.setReg rn (writeBackValue ix base off) else s

/-- A load: `val = MemRead(addr, n)`, `x[Rd] <- val`, then the write-back; or the memory fault and nothing else (R220, R230).
`i` is the instruction itself, for the fault record's word. -/
def loadOp (i : Instr) (n : Width) (ix : Indexing) (rn rd : Reg) (off : Word) (s : State) : State :=
  match memRead s (transferAddress ix (s.reg rn) off) n with
  | none => raise (transferFaultRecord i (transferAddress ix (s.reg rn) off) s) s
  | some v => writeBackBase ix rn (s.reg rn) off (s.setReg rd v)

/-- A store: `MemWrite(addr, n, x[Rd])`, then the write-back; or the memory fault and nothing else (R220, R230). The old value
of `x[Rd]` is stored also when `Rd` is the base (R231). -/
def storeOp (i : Instr) (n : Width) (ix : Indexing) (rn rd : Reg) (off : Word) (s : State) : State :=
  match memWrite s (transferAddress ix (s.reg rn) off) n (s.reg rd) with
  | none => raise (transferFaultRecord i (transferAddress ix (s.reg rn) off) s) s
  | some t => writeBackBase ix rn (s.reg rn) off t

/-- LDR, immediate offset (R225). -/
def execLdrImm (c : Cond) (ix : Indexing) (rn rd : Reg) (imm12 : BitVec 12) (s : State) : Result :=
  guarded c (loadOp (.ldrImm c ix rn rd imm12) .word ix rn rd (immOffset imm12) s) s

/-- LDR, shifted-register offset (R225). -/
def execLdrReg (c : Cond) (ix : Indexing) (rn rd : Reg) (o : ShiftImm) (s : State) : Result :=
  guarded c (loadOp (.ldrReg c ix rn rd o) .word ix rn rd (regOffset o s) s) s

/-- STR, immediate offset (R226). -/
def execStrImm (c : Cond) (ix : Indexing) (rn rd : Reg) (imm12 : BitVec 12) (s : State) : Result :=
  guarded c (storeOp (.strImm c ix rn rd imm12) .word ix rn rd (immOffset imm12) s) s

/-- STR, shifted-register offset (R226). -/
def execStrReg (c : Cond) (ix : Indexing) (rn rd : Reg) (o : ShiftImm) (s : State) : Result :=
  guarded c (storeOp (.strReg c ix rn rd o) .word ix rn rd (regOffset o s) s) s

/-- LDRB, immediate offset (R227). -/
def execLdrbImm (c : Cond) (ix : Indexing) (rn rd : Reg) (imm12 : BitVec 12) (s : State) : Result :=
  guarded c (loadOp (.ldrbImm c ix rn rd imm12) .byte ix rn rd (immOffset imm12) s) s

/-- LDRB, shifted-register offset (R227). -/
def execLdrbReg (c : Cond) (ix : Indexing) (rn rd : Reg) (o : ShiftImm) (s : State) : Result :=
  guarded c (loadOp (.ldrbReg c ix rn rd o) .byte ix rn rd (regOffset o s) s) s

/-- STRB, immediate offset (R228). -/
def execStrbImm (c : Cond) (ix : Indexing) (rn rd : Reg) (imm12 : BitVec 12) (s : State) : Result :=
  guarded c (storeOp (.strbImm c ix rn rd imm12) .byte ix rn rd (immOffset imm12) s) s

/-- STRB, shifted-register offset (R228). -/
def execStrbReg (c : Cond) (ix : Indexing) (rn rd : Reg) (o : ShiftImm) (s : State) : Result :=
  guarded c (storeOp (.strbReg c ix rn rd o) .byte ix rn rd (regOffset o s) s) s

end Sys2Proof.Machine
end

