-- ==== Sys2Proof/Machine/Dispatch.lean ====
section
/-! DEFINITION. The dispatcher (`spec/47_fetch_execute.md` R315): one arm for each constructor of `Instr`, in the opcode
table's order. `exec` runs in the state after the PC advance, so that register 15 reads `A + 4`. -/

namespace Sys2Proof.Machine

def exec (i : Instr) (s : State) : Host.Outcome State Fault Refusal :=
  match i with
  | .bx c rn => Sys2Proof.Machine.execBx c rn s
  | .mrs c ps rd => Sys2Proof.Machine.execMrs c ps rd s
  | .msr c pd rm => Sys2Proof.Machine.execMsr c pd rm s
  | .swp c rn rd rm => Sys2Proof.Machine.execSwp c rn rd rm s
  | .swpb c rn rd rm => Sys2Proof.Machine.execSwpb c rn rd rm s
  | .msrFlags c im pd operand => Sys2Proof.Machine.execMsrFlags c im pd operand s
  | .strhReg c ix rn rd rm => Sys2Proof.Machine.execStrhReg c ix rn rd rm s
  | .ldrhReg c ix rn rd rm => Sys2Proof.Machine.execLdrhReg c ix rn rd rm s
  | .ldrsbReg c ix rn rd rm => Sys2Proof.Machine.execLdrsbReg c ix rn rd rm s
  | .ldrshReg c ix rn rd rm => Sys2Proof.Machine.execLdrshReg c ix rn rd rm s
  | .hwReservedRegSh2 c ix rn rd rm => Sys2Proof.Machine.execHwReservedRegSh2 c ix rn rd rm s
  | .hwReservedRegSh3 c ix rn rd rm => Sys2Proof.Machine.execHwReservedRegSh3 c ix rn rd rm s
  | .mul c sf rd rn rs rm => Sys2Proof.Machine.execMul c sf rd rn rs rm s
  | .mla c sf rd rn rs rm => Sys2Proof.Machine.execMla c sf rd rn rs rm s
  | .umull c sf rdHi rdLo rs rm => Sys2Proof.Machine.execUmull c sf rdHi rdLo rs rm s
  | .umlal c sf rdHi rdLo rs rm => Sys2Proof.Machine.execUmlal c sf rdHi rdLo rs rm s
  | .smull c sf rdHi rdLo rs rm => Sys2Proof.Machine.execSmull c sf rdHi rdLo rs rm s
  | .smlal c sf rdHi rdLo rs rm => Sys2Proof.Machine.execSmlal c sf rdHi rdLo rs rm s
  | .strhImm c ix rn rd offHi offLo => Sys2Proof.Machine.execStrhImm c ix rn rd offHi offLo s
  | .ldrhImm c ix rn rd offHi offLo => Sys2Proof.Machine.execLdrhImm c ix rn rd offHi offLo s
  | .ldrsbImm c ix rn rd offHi offLo => Sys2Proof.Machine.execLdrsbImm c ix rn rd offHi offLo s
  | .ldrshImm c ix rn rd offHi offLo => Sys2Proof.Machine.execLdrshImm c ix rn rd offHi offLo s
  | .hwReservedImmSh2 c ix rn rd offHi offLo => Sys2Proof.Machine.execHwReservedImmSh2 c ix rn rd offHi offLo s
  | .hwReservedImmSh3 c ix rn rd offHi offLo => Sys2Proof.Machine.execHwReservedImmSh3 c ix rn rd offHi offLo s
  | .cdp c opc crn crd cpNum cp crm => Sys2Proof.Machine.execCdp c opc crn crd cpNum cp crm s
  | .mrc c opc crn rd cpNum cp crm => Sys2Proof.Machine.execMrc c opc crn rd cpNum cp crm s
  | .mcr c opc crn rd cpNum cp crm => Sys2Proof.Machine.execMcr c opc crn rd cpNum cp crm s
  | .undefined c xHi xLo => Sys2Proof.Machine.execUndefined c xHi xLo s
  | .swi c comment => Sys2Proof.Machine.execSwi c comment s
  | .ldm c ix psr rn regList => Sys2Proof.Machine.execLdm c ix psr rn regList s
  | .stm c ix psr rn regList => Sys2Proof.Machine.execStm c ix psr rn regList s
  | .b c imm24 => Sys2Proof.Machine.execB c imm24 s
  | .bl c imm24 => Sys2Proof.Machine.execBl c imm24 s
  | .ldc c ix nbit rn crd cpNum offset8 => Sys2Proof.Machine.execLdc c ix nbit rn crd cpNum offset8 s
  | .stc c ix nbit rn crd cpNum offset8 => Sys2Proof.Machine.execStc c ix nbit rn crd cpNum offset8 s
  | .ldrImm c ix rn rd imm12 => Sys2Proof.Machine.execLdrImm c ix rn rd imm12 s
  | .ldrReg c ix rn rd o => Sys2Proof.Machine.execLdrReg c ix rn rd o s
  | .strImm c ix rn rd imm12 => Sys2Proof.Machine.execStrImm c ix rn rd imm12 s
  | .strReg c ix rn rd o => Sys2Proof.Machine.execStrReg c ix rn rd o s
  | .ldrbImm c ix rn rd imm12 => Sys2Proof.Machine.execLdrbImm c ix rn rd imm12 s
  | .ldrbReg c ix rn rd o => Sys2Proof.Machine.execLdrbReg c ix rn rd o s
  | .strbImm c ix rn rd imm12 => Sys2Proof.Machine.execStrbImm c ix rn rd imm12 s
  | .strbReg c ix rn rd o => Sys2Proof.Machine.execStrbReg c ix rn rd o s
  | .andImm c sf rn rd o => Sys2Proof.Machine.execAndImm c sf rn rd o s
  | .andShiftImm c sf rn rd o => Sys2Proof.Machine.execAndShiftImm c sf rn rd o s
  | .andShiftReg c sf rn rd o => Sys2Proof.Machine.execAndShiftReg c sf rn rd o s
  | .eorImm c sf rn rd o => Sys2Proof.Machine.execEorImm c sf rn rd o s
  | .eorShiftImm c sf rn rd o => Sys2Proof.Machine.execEorShiftImm c sf rn rd o s
  | .eorShiftReg c sf rn rd o => Sys2Proof.Machine.execEorShiftReg c sf rn rd o s
  | .subImm c sf rn rd o => Sys2Proof.Machine.execSubImm c sf rn rd o s
  | .subShiftImm c sf rn rd o => Sys2Proof.Machine.execSubShiftImm c sf rn rd o s
  | .subShiftReg c sf rn rd o => Sys2Proof.Machine.execSubShiftReg c sf rn rd o s
  | .rsbImm c sf rn rd o => Sys2Proof.Machine.execRsbImm c sf rn rd o s
  | .rsbShiftImm c sf rn rd o => Sys2Proof.Machine.execRsbShiftImm c sf rn rd o s
  | .rsbShiftReg c sf rn rd o => Sys2Proof.Machine.execRsbShiftReg c sf rn rd o s
  | .addImm c sf rn rd o => Sys2Proof.Machine.execAddImm c sf rn rd o s
  | .addShiftImm c sf rn rd o => Sys2Proof.Machine.execAddShiftImm c sf rn rd o s
  | .addShiftReg c sf rn rd o => Sys2Proof.Machine.execAddShiftReg c sf rn rd o s
  | .adcImm c sf rn rd o => Sys2Proof.Machine.execAdcImm c sf rn rd o s
  | .adcShiftImm c sf rn rd o => Sys2Proof.Machine.execAdcShiftImm c sf rn rd o s
  | .adcShiftReg c sf rn rd o => Sys2Proof.Machine.execAdcShiftReg c sf rn rd o s
  | .sbcImm c sf rn rd o => Sys2Proof.Machine.execSbcImm c sf rn rd o s
  | .sbcShiftImm c sf rn rd o => Sys2Proof.Machine.execSbcShiftImm c sf rn rd o s
  | .sbcShiftReg c sf rn rd o => Sys2Proof.Machine.execSbcShiftReg c sf rn rd o s
  | .rscImm c sf rn rd o => Sys2Proof.Machine.execRscImm c sf rn rd o s
  | .rscShiftImm c sf rn rd o => Sys2Proof.Machine.execRscShiftImm c sf rn rd o s
  | .rscShiftReg c sf rn rd o => Sys2Proof.Machine.execRscShiftReg c sf rn rd o s
  | .tstImm c rn rd o => Sys2Proof.Machine.execTstImm c rn rd o s
  | .tstS0Imm c rn rd o => Sys2Proof.Machine.execTstS0Imm c rn rd o s
  | .tstShiftImm c rn rd o => Sys2Proof.Machine.execTstShiftImm c rn rd o s
  | .tstS0ShiftImm c rn rd o => Sys2Proof.Machine.execTstS0ShiftImm c rn rd o s
  | .tstShiftReg c rn rd o => Sys2Proof.Machine.execTstShiftReg c rn rd o s
  | .tstS0ShiftReg c rn rd o => Sys2Proof.Machine.execTstS0ShiftReg c rn rd o s
  | .teqImm c rn rd o => Sys2Proof.Machine.execTeqImm c rn rd o s
  | .teqS0Imm c rn rd o => Sys2Proof.Machine.execTeqS0Imm c rn rd o s
  | .teqShiftImm c rn rd o => Sys2Proof.Machine.execTeqShiftImm c rn rd o s
  | .teqS0ShiftImm c rn rd o => Sys2Proof.Machine.execTeqS0ShiftImm c rn rd o s
  | .teqShiftReg c rn rd o => Sys2Proof.Machine.execTeqShiftReg c rn rd o s
  | .teqS0ShiftReg c rn rd o => Sys2Proof.Machine.execTeqS0ShiftReg c rn rd o s
  | .cmpImm c rn rd o => Sys2Proof.Machine.execCmpImm c rn rd o s
  | .cmpS0Imm c rn rd o => Sys2Proof.Machine.execCmpS0Imm c rn rd o s
  | .cmpShiftImm c rn rd o => Sys2Proof.Machine.execCmpShiftImm c rn rd o s
  | .cmpS0ShiftImm c rn rd o => Sys2Proof.Machine.execCmpS0ShiftImm c rn rd o s
  | .cmpShiftReg c rn rd o => Sys2Proof.Machine.execCmpShiftReg c rn rd o s
  | .cmpS0ShiftReg c rn rd o => Sys2Proof.Machine.execCmpS0ShiftReg c rn rd o s
  | .cmnImm c rn rd o => Sys2Proof.Machine.execCmnImm c rn rd o s
  | .cmnS0Imm c rn rd o => Sys2Proof.Machine.execCmnS0Imm c rn rd o s
  | .cmnShiftImm c rn rd o => Sys2Proof.Machine.execCmnShiftImm c rn rd o s
  | .cmnS0ShiftImm c rn rd o => Sys2Proof.Machine.execCmnS0ShiftImm c rn rd o s
  | .cmnShiftReg c rn rd o => Sys2Proof.Machine.execCmnShiftReg c rn rd o s
  | .cmnS0ShiftReg c rn rd o => Sys2Proof.Machine.execCmnS0ShiftReg c rn rd o s
  | .orrImm c sf rn rd o => Sys2Proof.Machine.execOrrImm c sf rn rd o s
  | .orrShiftImm c sf rn rd o => Sys2Proof.Machine.execOrrShiftImm c sf rn rd o s
  | .orrShiftReg c sf rn rd o => Sys2Proof.Machine.execOrrShiftReg c sf rn rd o s
  | .movImm c sf rn rd o => Sys2Proof.Machine.execMovImm c sf rn rd o s
  | .movShiftImm c sf rn rd o => Sys2Proof.Machine.execMovShiftImm c sf rn rd o s
  | .movShiftReg c sf rn rd o => Sys2Proof.Machine.execMovShiftReg c sf rn rd o s
  | .bicImm c sf rn rd o => Sys2Proof.Machine.execBicImm c sf rn rd o s
  | .bicShiftImm c sf rn rd o => Sys2Proof.Machine.execBicShiftImm c sf rn rd o s
  | .bicShiftReg c sf rn rd o => Sys2Proof.Machine.execBicShiftReg c sf rn rd o s
  | .mvnImm c sf rn rd o => Sys2Proof.Machine.execMvnImm c sf rn rd o s
  | .mvnShiftImm c sf rn rd o => Sys2Proof.Machine.execMvnShiftImm c sf rn rd o s
  | .mvnShiftReg c sf rn rd o => Sys2Proof.Machine.execMvnShiftReg c sf rn rd o s

end Sys2Proof.Machine
end

