-- ==== Sys2Proof/Machine/Step.lean ====
section
/-! DEFINITION. One step (`spec/47_fetch_execute.md` R310): a Halted machine makes none; else the fetch, the PC advance, and the
fetched word's instruction under its condition. -/

namespace Sys2Proof.Machine

/-- `Step` (R310). The outcome `next` is `stepped`, the outcome `fault halted` is `halted` (R311; DESIGN CHOICE, log 1); a fault of the machine
is a next state with its record latched (R334). The condition is tested inside `exec`, instruction by instruction (R314;
DEDUCED, log 5). -/
def step (s : State) : Host.Outcome State Fault Refusal :=
  if s.halted then .fault .halted
  else
    match fetch s with
    | none => .next (raise (fetchFaultRecord s) s)
    | some w => exec (decode w) (advancePc s)

/-- The state with the low `nbits` bits of `w`, the bits above them zero, stored where `step` fetches its next instruction. -/
def State.withFetchWord (s : State) (nbits w : Nat) : State := placeFetchWord s (BitVec.ofNat 32 (w % 2 ^ nbits))

end Sys2Proof.Machine
end

