-- ==== Sys2Proof/Machine/Run.lean ====
section
/-! DEFINITION. The run (`spec/47_fetch_execute.md` R317). -/

namespace Sys2Proof.Machine

/-- `Run(limit)`: steps until `Step` does not answer `stepped`, at most `limit` times; the number of steps taken and the state
they end in (R317). The limit belongs to the host. -/
def runLimit : Nat → State → Nat × State
  | 0, s => (0, s)
  | limit + 1, s =>
    match step s with
    | .next t => ((runLimit limit t).1 + 1, (runLimit limit t).2)
    | .fault _ => (0, s)
    | .refused _ => (0, s)

end Sys2Proof.Machine
end

