-- ==== Sys2Proof/Safety.lean ====
section
/-! DEFINITION. What holds of every state the machine can be in, and the words claims use for a run: a Running machine, a run
that ended normally, a run that ended by a fault (`spec/47_fetch_execute.md` R318). -/

namespace Sys2Proof.Machine

/-- The fields of a fault record fit its cause (`spec/60_exceptions.md` R331 to R333): a decode gap names the word, its
category, which has no unit, and no address; a transfer fault names a word of the category SingleDataTransfer and the
address; a fetch fault names the address of the fetch and no word. -/
def FaultRecord.consistent (f : FaultRecord) : Bool :=
  match f.cause, f.word, f.address with
  | .decodeGap, some w, none => f.category == some (classify w) && !(classify w).executes
  | .memoryFault, some w, some _ => f.category == some .singleDataTransfer && classify w == .singleDataTransfer
  | .memoryFault, none, some a => f.category == none && a == f.instrAddress.toNat
  | _, _, _ => false

/-- The invariant: RAM is in canonical form and lists only addresses below `RAM_SIZE`, `RAM_SIZE` is in the range of R6, and a
latched fault record is consistent. -/
abbrev State.Inv (s : State) : Prop :=
  s.ram.wf ∧ (∀ x ∈ s.ram, x.1 < s.ramSize) ∧ 1 ≤ s.ramSize ∧ s.ramSize ≤ Config.maxRamSize ∧
    s.fault.all FaultRecord.consistent = true

/-- The normal end of a run: the PC is at or above `RAM_SIZE` and no fault is latched (R318). -/
def State.endedNormally (s : State) : Bool := s.fault.isNone && decide (s.ramSize ≤ s.pc.toNat)

/-- The fault end of a run (R318). -/
def State.endedByFault (s : State) : Bool := s.fault.isSome

end Sys2Proof.Machine
end

