-- ==== Sys2Proof/Certificates/Slice0/Obligations.lean ====
section
/-! DEFINITION. The model's statements for the provers: the vocabulary they share, then one `def Obligations.<Name> : Prop`
each. Every statement about an instruction is about `exec` in the state after the PC advance, in which register 15 reads
`A + 4` (`spec/10_state.md` R24), so that `A`, the instruction's own address, is `s.pc - 4`. -/

namespace Sys2Proof.Claims
open Sys2Proof.Machine

/-! ## What an instruction leaves alone -/

/-- `i` completes: it answers a next state, and the next state is as `P` says. -/
def Next (i : Instr) (s : State) (P : State → Prop) : Prop := ∃ t, exec i s = .next t ∧ P t

/-- Every register but the listed ones is as before. -/
def KeepsRegs (s t : State) (written : List Reg) : Prop := ∀ r, r ∉ written → t.reg r = s.reg r

/-- Every byte of memory reads as before. -/
def KeepsMemory (s t : State) : Prop := ∀ a, t.byteAt a = s.byteAt a

/-- `RAM_SIZE` and the fault latch are as before. -/
def KeepsLatch (s t : State) : Prop := t.ramSize = s.ramSize ∧ t.fault = s.fault

/-! ## Signed values and bits -/

/-- The signed value of a pattern, `v - 2^32 * v[31]` (R13). -/
def signed (v : Word) : Int := (v.toNat : Int) - 4294967296 * (v.getLsbD 31).toNat

/-- The signed byte offset of a branch: `4 * imm24`, less `2^26` where `imm24[23] = 1` (R99). -/
def branchDistance (imm24 : BitVec 24) : Int := 4 * (imm24.toNat : Int) - 67108864 * (imm24.getLsbD 23).toNat

/-- The row's match under its mask, of the instruction's word. -/
def Matches (i : Instr) (mask pattern : Word) : Prop := encode i &&& mask = pattern

/-! ## Data processing -/

/-- `P` of each of the three forms of an opcode, with the shifter carry-out and the value of its operand 2 (R153). -/
def EachForm (imm : RotImm → Instr) (shiftImm : ShiftImm → Instr) (shiftReg : ShiftReg → Instr) (s : State)
    (P : Instr → Bool → Word → Prop) : Prop :=
  (∀ o, P (imm o) (immOperand o s).1 (immOperand o s).2) ∧
  (∀ o, P (shiftImm o) (shiftImmOperand o s).1 (shiftImmOperand o s).2) ∧
  (∀ o, P (shiftReg o) (shiftRegOperand o s).1 (shiftRegOperand o s).2)

/-- `w[27:26] = 00` and `w[24:21]` is the opcode (R90). -/
def HasOpcode (i : Instr) (opcode : BitVec 4) : Prop := field (encode i) 26 2 = 0 ∧ field (encode i) 21 4 = opcode

/-- `if S = 1 and Rd != 15: C <- sc; Z <- (res == 0); N <- res[31]`, else no flag. -/
def logicalFlags (sf : Bool) (rd : Reg) (sc : Bool) (res : Word) (f : Flags) : Flags :=
  if sf = true ∧ rd ≠ 15 then { n := res.getLsbD 31, z := decide (res = 0), c := sc, v := f.v } else f

/-- `if S = 1 and Rd != 15: C <- total[32]; Z <- (res == 0); N <- res[31]; V <- ovf`, else no flag, for the exact sum `total`
and `res = total[31:0]`. -/
def sumFlags (sf : Bool) (rd : Reg) (total : Nat) (ovf : Bool) (f : Flags) : Flags :=
  if sf = true ∧ rd ≠ 15 then
    { n := total.testBit 31, z := decide (total % 4294967296 = 0), c := total.testBit 32, v := ovf }
  else f

/-- `(x[31] == y[31]) and (res[31] != x[31])` with `res = total[31:0]`. -/
def ovfAdd (x y : Word) (total : Nat) : Bool := (x.getLsbD 31 == y.getLsbD 31) && (total.testBit 31 != x.getLsbD 31)

/-- `(x[31] != y[31]) and (res[31] != x[31])` with `res = total[31:0]`. -/
def ovfSub (x y : Word) (total : Nat) : Bool := (x.getLsbD 31 != y.getLsbD 31) && (total.testBit 31 != x.getLsbD 31)

/-- `x[Rd] <- res`, the flags become `f`, and nothing else changes. -/
def Lands (s : State) (rd : Reg) (res : Word) (f : Flags) (t : State) : Prop :=
  t.reg rd = res ∧ t.flags = f ∧ KeepsRegs s t [rd] ∧ KeepsMemory s t ∧ KeepsLatch s t

/-- The flags become `f`, and nothing else changes. -/
def OnlyFlags (s : State) (f : Flags) (t : State) : Prop :=
  t.flags = f ∧ KeepsRegs s t [] ∧ KeepsMemory s t ∧ KeepsLatch s t

/-! ## Single data transfer -/

/-- The address expression of a transfer with its two forms, the immediate and the shifted-register offset. -/
def EachOffset (imm : BitVec 12 → Instr) (reg : ShiftImm → Instr) (s : State) (P : Instr → Word → Prop) : Prop :=
  (∀ o, P (imm o) (immOffset o)) ∧ (∀ o, P (reg o) (regOffset o s))

/-- `w[27:26] = 01`, `P = w[24]`, `U = w[23]`, `B = w[22]`, `W = w[21]`, `L = w[20]` (R97). -/
def HasTransferBits (i : Instr) (ix : Indexing) (b l : Bool) : Prop :=
  field (encode i) 26 2 = 1 ∧ bitAt (encode i) 24 = ix.p ∧ bitAt (encode i) 23 = ix.u ∧ bitAt (encode i) 22 = b ∧
  bitAt (encode i) 21 = ix.w ∧ bitAt (encode i) 20 = l

/-- A load of `val`: `x[Rd] <- val`, then `x[Rn] <- idx mod 2^32` if `P = 0` or `W = 1`; nothing else changes. -/
def Loads (s : State) (ix : Indexing) (rn rd : Reg) (off : Word) (val : Word) (t : State) : Prop :=
  (writesBack ix = true → t.reg rn = writeBackValue ix (s.reg rn) off ∧ (rd ≠ rn → t.reg rd = val) ∧
    KeepsRegs s t [rd, rn]) ∧
  (writesBack ix = false → t.reg rd = val ∧ KeepsRegs s t [rd]) ∧
  t.flags = s.flags ∧ KeepsMemory s t ∧ KeepsLatch s t

/-- A store of the `n` low bytes of `x[Rd]` at `addr`, then `x[Rn] <- idx mod 2^32` if `P = 0` or `W = 1`; nothing else
changes, and every byte outside the stored ones reads as before. -/
def Stores (s : State) (ix : Indexing) (rn rd : Reg) (off : Word) (addr : Int) (n : Nat) (t : State) : Prop :=
  (∀ k, k < n → t.byteAt (addr.toNat + k) = (s.reg rd).extractLsb' (8 * k) 8) ∧
  (∀ a : Nat, ((a : Int) < addr ∨ addr + n ≤ (a : Int)) → t.byteAt a = s.byteAt a) ∧
  (writesBack ix = true → t.reg rn = writeBackValue ix (s.reg rn) off ∧ KeepsRegs s t [rn]) ∧
  (writesBack ix = false → KeepsRegs s t []) ∧
  t.flags = s.flags ∧ KeepsLatch s t

/-- The base and the offset of the single data transfer in the word `w`, and its address (R97, R220). -/
def transferAddressOf (w : Word) (s : State) : Int :=
  transferAddress (decodeIndexing w) (s.reg (regAt w 16))
    (if bitAt w 25 then regOffset (decodeShiftImm w) s else immOffset (field w 0 12))

/-! ## Long multiply -/

/-- `x[RdLo] <- res[31:0]`, then `x[RdHi] <- res[63:32]`; `if S = 1: Z <- (res = 0); N <- res[63]`; nothing else changes. -/
def LongLands (s : State) (sf : Bool) (rdHi rdLo : Reg) (res : BitVec 64) (t : State) : Prop :=
  t.reg rdHi = res.extractLsb' 32 32 ∧ (rdLo ≠ rdHi → t.reg rdLo = res.extractLsb' 0 32) ∧
  t.flags = { s.flags with n := if sf then res.getLsbD 63 else s.flags.n,
                           z := if sf then decide (res = 0) else s.flags.z } ∧
  KeepsRegs s t [rdHi, rdLo] ∧ KeepsMemory s t ∧ KeepsLatch s t

/-! ## Faults -/

/-- The latch holds `f`, and nothing else has changed. -/
def OnlyLatches (s : State) (f : FaultRecord) (t : State) : Prop :=
  t.fault = some f ∧ KeepsRegs s t [] ∧ t.flags = s.flags ∧ KeepsMemory s t ∧ t.ramSize = s.ramSize

/-- A memory fault at `addr` is latched, and nothing else has changed. -/
def FaultsAt (s : State) (addr : Int) (t : State) : Prop :=
  ∃ f, f.cause = .memoryFault ∧ f.address = some addr ∧ OnlyLatches s f t

/-- `i`, a word of a category without a unit, completes by raising the decode gap: record `(DecodeGap, category, w, none, A)`,
nothing else changed. That `w` is `encode i` and `A` is `pc - 4` is the model's reading (log 4). -/
def Gaps (i : Instr) (category : Category) (s : State) : Prop :=
  Next i s (OnlyLatches s ⟨.decodeGap, some category, some (encode i), none, s.pc - 4⟩)

end Sys2Proof.Claims

section
open Sys2Proof Sys2Proof.Machine Sys2Proof.Claims

/-- Decoding undoes encoding, for every well-formed instruction. -/
def Obligations.DecodeOfEncode : Prop := ∀ i : Instr, i.wf = true → decode (encode i) = i

/-- Encoding undoes decoding, on every word. -/
def Obligations.EncodeOfDecode : Prop := ∀ w : Word, (decode w).wf = true ∧ encode (decode w) = w

/-- R89: the tree and the table walk agree on every word; the decoded instruction has that category. -/
def Obligations.ClassifierTree : Prop :=
  ∀ w : Word, classifyTree w = classify w ∧ (decode w).category = classify w

/-- R84, R88 (and R87's last sentence): the priority table holds the entries of the declaration table, most mask bits first and
entries with equally many in declaration order; every word matches an entry; equal specificity never decides. -/
def Obligations.ClassifierTable : Prop :=
  (∀ n, priorityTable.filter (fun e => e.popCount == n) = declarationTable.filter (fun e => e.popCount == n)) ∧
  priorityTable.Pairwise (fun e f => f.popCount ≤ e.popCount) ∧
  (∀ w : Word, ∃ e ∈ priorityTable, e.matches w = true) ∧
  (∀ w : Word, ∀ e ∈ declarationTable, ∀ f ∈ declarationTable,
    e.matches w = true → f.matches w = true → e.popCount = f.popCount → e.category = f.category)

/-- Words the spec prints beside their assembly. -/
def Obligations.SpecWords : Prop :=
  decode 0xE2800055 = .addImm .al false 0 0 ⟨0, 0x55⟩ ∧
  decode 0xE2800C7E = .addImm .al false 0 0 ⟨12, 0x7E⟩ ∧
  decode 0xE21104FF = .andImm .al true 1 0 ⟨4, 0xFF⟩ ∧
  decode 0xE1B00231 = .movShiftReg .al true 0 0 ⟨2, false, .lsr, 1⟩ ∧
  decode 0xE7910102 = .ldrReg .al ⟨true, true, false⟩ 1 0 ⟨2, .lsl, 2⟩ ∧
  decode 0xE4410001 = .strbImm .al ⟨false, false, false⟩ 1 0 1 ∧
  decode 0xEB00000F = .bl .al 15 ∧
  decode 0xE0810392 = .umull .al false 1 0 3 2 ∧
  decode 0xEF123456 = .swi .al 0x123456

/-- The positions of the fields in the executed formats (R90, R92 to R95, R97 to R100). -/
def Obligations.ExecutedFormats : Prop :=
  (∀ c sf rn rd o, let w := encode (.addImm c sf rn rd o)
    field w 28 4 = c.bits ∧ bitAt w 25 = true ∧ bitAt w 20 = sf ∧ (field w 16 4).toNat = rn.val ∧
    (field w 12 4).toNat = rd.val ∧ field w 8 4 = o.rot ∧ field w 0 8 = o.imm8) ∧
  (∀ c sf rn rd o, let w := encode (.addShiftImm c sf rn rd o)
    field w 28 4 = c.bits ∧ bitAt w 25 = false ∧ bitAt w 20 = sf ∧ (field w 16 4).toNat = rn.val ∧
    (field w 12 4).toNat = rd.val ∧ field w 7 5 = o.amount ∧ field w 5 2 = o.mode.bits ∧ bitAt w 4 = false ∧
    (field w 0 4).toNat = o.rm.val) ∧
  (∀ c sf rn rd o, let w := encode (.addShiftReg c sf rn rd o)
    field w 28 4 = c.bits ∧ bitAt w 25 = false ∧ bitAt w 20 = sf ∧ (field w 16 4).toNat = rn.val ∧
    (field w 12 4).toNat = rd.val ∧ (field w 8 4).toNat = o.rs.val ∧ bitAt w 7 = o.bit7 ∧ field w 5 2 = o.mode.bits ∧
    bitAt w 4 = true ∧ (field w 0 4).toNat = o.rm.val) ∧
  (∀ c ix rn rd imm12, let w := encode (.ldrImm c ix rn rd imm12)
    field w 28 4 = c.bits ∧ bitAt w 25 = false ∧ bitAt w 24 = ix.p ∧ bitAt w 23 = ix.u ∧ bitAt w 21 = ix.w ∧
    (field w 16 4).toNat = rn.val ∧ (field w 12 4).toNat = rd.val ∧ field w 0 12 = imm12) ∧
  (∀ c ix rn rd o, let w := encode (.ldrReg c ix rn rd o)
    field w 28 4 = c.bits ∧ bitAt w 25 = true ∧ bitAt w 24 = ix.p ∧ bitAt w 23 = ix.u ∧ bitAt w 21 = ix.w ∧
    (field w 16 4).toNat = rn.val ∧ (field w 12 4).toNat = rd.val ∧ field w 7 5 = o.amount ∧
    field w 5 2 = o.mode.bits ∧ bitAt w 4 = false ∧ (field w 0 4).toNat = o.rm.val) ∧
  (∀ c imm24, let w := encode (.b c imm24)
    field w 28 4 = c.bits ∧ field w 25 3 = 0b101 ∧ bitAt w 24 = false ∧ field w 0 24 = imm24) ∧
  (∀ c sf rdHi rdLo rs rm, let w := encode (.umull c sf rdHi rdLo rs rm)
    field w 28 4 = c.bits ∧ field w 23 5 = 0b00001 ∧ bitAt w 20 = sf ∧ (field w 16 4).toNat = rdHi.val ∧
    (field w 12 4).toNat = rdLo.val ∧ (field w 8 4).toNat = rs.val ∧ field w 4 4 = 0b1001 ∧
    (field w 0 4).toNat = rm.val)

/-- R131: the expression of each condition code. -/
def Obligations.ConditionCodes : Prop :=
  ∀ f : Flags, let pass (code : BitVec 4) : Bool := condPass (Cond.ofBits code) f
    (pass 0b0000 = true ↔ f.z = true) ∧ (pass 0b0001 = true ↔ f.z = false) ∧
    (pass 0b0010 = true ↔ f.c = true) ∧ (pass 0b0011 = true ↔ f.c = false) ∧
    (pass 0b0100 = true ↔ f.n = true) ∧ (pass 0b0101 = true ↔ f.n = false) ∧
    (pass 0b0110 = true ↔ f.v = true) ∧ (pass 0b0111 = true ↔ f.v = false) ∧
    (pass 0b1000 = true ↔ f.c = true ∧ f.z = false) ∧ (pass 0b1001 = true ↔ f.c = false ∨ f.z = true) ∧
    (pass 0b1010 = true ↔ f.n = f.v) ∧ (pass 0b1011 = true ↔ f.n ≠ f.v) ∧
    (pass 0b1100 = true ↔ f.z = false ∧ f.n = f.v) ∧ (pass 0b1101 = true ↔ f.z = true ∨ f.n ≠ f.v) ∧
    pass 0b1110 = true ∧ pass 0b1111 = false

/-- R132: the codes are eight predicates and their negations; their names describe the flags CMP leaves. -/
def Obligations.ConditionPairs : Prop :=
  (∀ (code : BitVec 4) (f : Flags), code.getLsbD 0 = false →
    condPass (Cond.ofBits (code ^^^ 1)) f = !condPass (Cond.ofBits code) f) ∧
  (∀ f : Flags, ((List.range 16).filter fun n => condPass (Cond.ofBits (BitVec.ofNat 4 n)) f).length = 8) ∧
  (∀ (rn rd : Reg) (s : State), rd ≠ 15 →
    EachForm (.cmpImm .al rn rd) (.cmpShiftImm .al rn rd) (.cmpShiftReg .al rn rd) s fun i _ b =>
      Next i s fun t => let a := s.reg rn
        (condPass .cs t.flags = true ↔ b.toNat ≤ a.toNat) ∧ (condPass .hi t.flags = true ↔ b.toNat < a.toNat) ∧
        (condPass .ge t.flags = true ↔ signed b ≤ signed a) ∧ (condPass .gt t.flags = true ↔ signed b < signed a) ∧
        (condPass .eq t.flags = true ↔ a = b))

/-- R314 (R283, R234, R272): a failing condition ends the step; nothing but the PC has changed. -/
def Obligations.FailingCondition : Prop :=
  (∀ (i : Instr) (s : State), condPass i.cond s.flags = false → exec i s = .next s) ∧
  (∀ (s : State) (w : Word), s.halted = false → fetch s = some w →
    condPass (Cond.ofBits (field w 28 4)) s.flags = false →
    ∃ t, step s = .next t ∧ t.pc = s.pc + 4 ∧ KeepsRegs s t [15] ∧ t.flags = s.flags ∧ KeepsMemory s t ∧ KeepsLatch s t)

/-- R141, R142: LSL. -/
def Obligations.ShiftLeft : Prop :=
  ∀ (cin : Bool) (v : Word),
    shift cin .lsl 0 v = (cin, v) ∧
    (∀ n, 1 ≤ n → n ≤ 31 → shift cin .lsl n v = (v.getLsbD (32 - n), BitVec.ofNat 32 (v.toNat * 2 ^ n))) ∧
    shift cin .lsl 32 v = (v.getLsbD 0, 0) ∧
    (∀ n, 33 ≤ n → n ≤ 255 → shift cin .lsl n v = (false, 0)) ∧
    (∀ n, 1 ≤ n → n ≤ 255 → (shift cin .lsl n v).1 = (v.toNat * 2 ^ n).testBit 32)

/-- R143, R144: LSR. -/
def Obligations.ShiftRight : Prop :=
  ∀ (cin : Bool) (v : Word),
    shift cin .lsr 0 v = (v.getLsbD 31, 0) ∧
    (∀ n, 1 ≤ n → n ≤ 31 → shift cin .lsr n v = (v.getLsbD (n - 1), BitVec.ofNat 32 (v.toNat / 2 ^ n))) ∧
    shift cin .lsr 32 v = (v.getLsbD 31, 0) ∧
    (∀ n, 33 ≤ n → n ≤ 255 → shift cin .lsr n v = (false, 0))

/-- R145, R146: ASR. -/
def Obligations.ShiftArithmetic : Prop :=
  ∀ (cin : Bool) (v : Word),
    shift cin .asr 0 v = (v.getLsbD 31, if v.getLsbD 31 then 0xFFFFFFFF else 0) ∧
    (∀ n, 1 ≤ n → n ≤ 31 →
      (shift cin .asr n v).1 = v.getLsbD (n - 1) ∧
      (shift cin .asr n v).2 = (v >>> n) ||| (if v.getLsbD 31 then BitVec.ofNat 32 (2 ^ 32 - 2 ^ (32 - n)) else 0) ∧
      (shift cin .asr n v).2 = BitVec.ofInt 32 (signed v / 2 ^ n)) ∧
    (∀ n, 32 ≤ n → n ≤ 255 → shift cin .asr n v = (v.getLsbD 31, if v.getLsbD 31 then 0xFFFFFFFF else 0))

/-- R147, R148: ROR and RRX. -/
def Obligations.RotateRight : Prop :=
  ∀ (cin : Bool) (v : Word),
    (∀ n, 1 ≤ n → n ≤ 255 →
      (shift cin .ror n v).2 = ror32 v (n % 32) ∧
      (∀ i, i < 32 → (shift cin .ror n v).2.getLsbD i = v.getLsbD ((i + n) % 32)) ∧
      (shift cin .ror n v).1 = (shift cin .ror n v).2.getLsbD 31 ∧
      (shift cin .ror n v).1 = v.getLsbD ((n - 1) % 32) ∧
      (n % 32 = 0 → shift cin .ror n v = (v.getLsbD 31, v))) ∧
    (∀ k, k ≤ 31 → ror32 v k = BitVec.ofNat 32 (v.toNat / 2 ^ k + v.toNat * 2 ^ (32 - k) % 2 ^ 32)) ∧
    (shift cin .ror 0 v).1 = v.getLsbD 0 ∧
    (shift cin .ror 0 v).2 = (if cin then 0x80000000 else 0) ||| (v >>> 1)

/-- R152: the immediate operand. Beside it the two register forms of R153 and the two offsets of R221. -/
def Obligations.OperandForms : Prop :=
  (∀ (imm8 : BitVec 8) (s : State), immOperand ⟨0, imm8⟩ s = (s.flags.c, imm8.setWidth 32)) ∧
  (∀ (o : RotImm) (s : State), o.rot ≠ 0 →
    (immOperand o s).2 = ror32 (o.imm8.setWidth 32) (2 * o.rot.toNat) ∧
    (immOperand o s).1 = (immOperand o s).2.getLsbD 31 ∧
    immOperand o s = shift s.flags.c .ror (2 * o.rot.toNat) (o.imm8.setWidth 32)) ∧
  (∀ s : State, immOperand ⟨0, 0x55⟩ s = (s.flags.c, 0x00000055) ∧ immOperand ⟨12, 0x7E⟩ s = (false, 0x00007E00) ∧
    immOperand ⟨1, 0x03⟩ s = (true, 0xC0000000) ∧ immOperand ⟨4, 0xFF⟩ s = (true, 0xFF000000)) ∧
  (∀ (o : ShiftImm) (s : State), shiftImmOperand o s = shift s.flags.c o.mode o.amount.toNat (s.reg o.rm)) ∧
  (∀ (o : ShiftReg) (s : State),
    shiftRegOperand o s = shift s.flags.c o.mode ((s.reg o.rs).toNat % 256) (s.reg o.rm)) ∧
  (∀ imm12 : BitVec 12, (immOffset imm12).toNat = imm12.toNat ∧ (immOffset imm12).toNat ≤ 4095) ∧
  (∀ (o : ShiftImm) (s : State), regOffset o s = (shift s.flags.c o.mode o.amount.toNat (s.reg o.rm)).2)

/-- R174: AND. -/
def Obligations.AndResult : Prop :=
  ∀ (c : Cond) (sf : Bool) (rn rd : Reg) (s : State), condPass c s.flags = true →
    EachForm (.andImm c sf rn rd) (.andShiftImm c sf rn rd) (.andShiftReg c sf rn rd) s fun i sc op2 =>
      HasOpcode i 0b0000 ∧
      Next i s (Lands s rd (s.reg rn &&& op2) (logicalFlags sf rd sc (s.reg rn &&& op2) s.flags))

/-- R175: EOR. -/
def Obligations.EorResult : Prop :=
  ∀ (c : Cond) (sf : Bool) (rn rd : Reg) (s : State), condPass c s.flags = true →
    EachForm (.eorImm c sf rn rd) (.eorShiftImm c sf rn rd) (.eorShiftReg c sf rn rd) s fun i sc op2 =>
      HasOpcode i 0b0001 ∧
      Next i s (Lands s rd (s.reg rn ^^^ op2) (logicalFlags sf rd sc (s.reg rn ^^^ op2) s.flags))

/-- R176: SUB. -/
def Obligations.SubResult : Prop :=
  ∀ (c : Cond) (sf : Bool) (rn rd : Reg) (s : State), condPass c s.flags = true →
    EachForm (.subImm c sf rn rd) (.subShiftImm c sf rn rd) (.subShiftReg c sf rn rd) s fun i _ op2 =>
      let a := s.reg rn
      let total := a.toNat + (~~~op2).toNat + 1
      HasOpcode i 0b0010 ∧
      Next i s (Lands s rd (BitVec.ofNat 32 total) (sumFlags sf rd total (ovfSub a op2 total) s.flags))

/-- R177: RSB. -/
def Obligations.RsbResult : Prop :=
  ∀ (c : Cond) (sf : Bool) (rn rd : Reg) (s : State), condPass c s.flags = true →
    EachForm (.rsbImm c sf rn rd) (.rsbShiftImm c sf rn rd) (.rsbShiftReg c sf rn rd) s fun i _ op2 =>
      let a := s.reg rn
      let total := op2.toNat + (~~~a).toNat + 1
      HasOpcode i 0b0011 ∧
      Next i s (Lands s rd (BitVec.ofNat 32 total) (sumFlags sf rd total (ovfSub op2 a total) s.flags))

/-- R178: ADD. -/
def Obligations.AddResult : Prop :=
  ∀ (c : Cond) (sf : Bool) (rn rd : Reg) (s : State), condPass c s.flags = true →
    EachForm (.addImm c sf rn rd) (.addShiftImm c sf rn rd) (.addShiftReg c sf rn rd) s fun i _ op2 =>
      let a := s.reg rn
      let total := a.toNat + op2.toNat
      HasOpcode i 0b0100 ∧
      Next i s (Lands s rd (BitVec.ofNat 32 total) (sumFlags sf rd total (ovfAdd a op2 total) s.flags))

/-- R179: ADC. -/
def Obligations.AdcResult : Prop :=
  ∀ (c : Cond) (sf : Bool) (rn rd : Reg) (s : State), condPass c s.flags = true →
    EachForm (.adcImm c sf rn rd) (.adcShiftImm c sf rn rd) (.adcShiftReg c sf rn rd) s fun i _ op2 =>
      let a := s.reg rn
      let total := a.toNat + op2.toNat + s.flags.c.toNat
      HasOpcode i 0b0101 ∧
      Next i s (Lands s rd (BitVec.ofNat 32 total) (sumFlags sf rd total (ovfAdd a op2 total) s.flags))

/-- R180: SBC. -/
def Obligations.SbcResult : Prop :=
  ∀ (c : Cond) (sf : Bool) (rn rd : Reg) (s : State), condPass c s.flags = true →
    EachForm (.sbcImm c sf rn rd) (.sbcShiftImm c sf rn rd) (.sbcShiftReg c sf rn rd) s fun i _ op2 =>
      let a := s.reg rn
      let total := a.toNat + (~~~op2).toNat + s.flags.c.toNat
      HasOpcode i 0b0110 ∧
      Next i s (Lands s rd (BitVec.ofNat 32 total) (sumFlags sf rd total (ovfSub a op2 total) s.flags))

/-- R181: RSC. -/
def Obligations.RscResult : Prop :=
  ∀ (c : Cond) (sf : Bool) (rn rd : Reg) (s : State), condPass c s.flags = true →
    EachForm (.rscImm c sf rn rd) (.rscShiftImm c sf rn rd) (.rscShiftReg c sf rn rd) s fun i _ op2 =>
      let a := s.reg rn
      let total := op2.toNat + (~~~a).toNat + s.flags.c.toNat
      HasOpcode i 0b0111 ∧
      Next i s (Lands s rd (BitVec.ofNat 32 total) (sumFlags sf rd total (ovfSub op2 a total) s.flags))

/-- R182: TST; the S = 0 words are constructors of their own. -/
def Obligations.TstFlags : Prop :=
  ∀ (c : Cond) (rn rd : Reg) (s : State), condPass c s.flags = true →
    (EachForm (.tstImm c rn rd) (.tstShiftImm c rn rd) (.tstShiftReg c rn rd) s fun i sc op2 =>
      HasOpcode i 0b1000 ∧ Next i s (OnlyFlags s (logicalFlags true rd sc (s.reg rn &&& op2) s.flags))) ∧
    (EachForm (.tstS0Imm c rn rd) (.tstS0ShiftImm c rn rd) (.tstS0ShiftReg c rn rd) s fun i sc op2 =>
      HasOpcode i 0b1000 ∧ Next i s (OnlyFlags s (logicalFlags false rd sc (s.reg rn &&& op2) s.flags)))

/-- R183: TEQ; the S = 0 words are constructors of their own. -/
def Obligations.TeqFlags : Prop :=
  ∀ (c : Cond) (rn rd : Reg) (s : State), condPass c s.flags = true →
    (EachForm (.teqImm c rn rd) (.teqShiftImm c rn rd) (.teqShiftReg c rn rd) s fun i sc op2 =>
      HasOpcode i 0b1001 ∧ Next i s (OnlyFlags s (logicalFlags true rd sc (s.reg rn ^^^ op2) s.flags))) ∧
    (EachForm (.teqS0Imm c rn rd) (.teqS0ShiftImm c rn rd) (.teqS0ShiftReg c rn rd) s fun i sc op2 =>
      HasOpcode i 0b1001 ∧ Next i s (OnlyFlags s (logicalFlags false rd sc (s.reg rn ^^^ op2) s.flags)))

/-- R184: CMP; the S = 0 words are constructors of their own. -/
def Obligations.CmpFlags : Prop :=
  ∀ (c : Cond) (rn rd : Reg) (s : State), condPass c s.flags = true →
    (EachForm (.cmpImm c rn rd) (.cmpShiftImm c rn rd) (.cmpShiftReg c rn rd) s fun i _ op2 =>
      let a := s.reg rn
      let total := a.toNat + (~~~op2).toNat + 1
      HasOpcode i 0b1010 ∧ Next i s (OnlyFlags s (sumFlags true rd total (ovfSub a op2 total) s.flags))) ∧
    (EachForm (.cmpS0Imm c rn rd) (.cmpS0ShiftImm c rn rd) (.cmpS0ShiftReg c rn rd) s fun i _ _ =>
      HasOpcode i 0b1010 ∧ Next i s (OnlyFlags s s.flags))

/-- R185: CMN; the S = 0 words are constructors of their own. -/
def Obligations.CmnFlags : Prop :=
  ∀ (c : Cond) (rn rd : Reg) (s : State), condPass c s.flags = true →
    (EachForm (.cmnImm c rn rd) (.cmnShiftImm c rn rd) (.cmnShiftReg c rn rd) s fun i _ op2 =>
      let a := s.reg rn
      let total := a.toNat + op2.toNat
      HasOpcode i 0b1011 ∧ Next i s (OnlyFlags s (sumFlags true rd total (ovfAdd a op2 total) s.flags))) ∧
    (EachForm (.cmnS0Imm c rn rd) (.cmnS0ShiftImm c rn rd) (.cmnS0ShiftReg c rn rd) s fun i _ _ =>
      HasOpcode i 0b1011 ∧ Next i s (OnlyFlags s s.flags))

/-- R186: ORR. -/
def Obligations.OrrResult : Prop :=
  ∀ (c : Cond) (sf : Bool) (rn rd : Reg) (s : State), condPass c s.flags = true →
    EachForm (.orrImm c sf rn rd) (.orrShiftImm c sf rn rd) (.orrShiftReg c sf rn rd) s fun i sc op2 =>
      HasOpcode i 0b1100 ∧
      Next i s (Lands s rd (s.reg rn ||| op2) (logicalFlags sf rd sc (s.reg rn ||| op2) s.flags))

/-- R187: MOV. -/
def Obligations.MovResult : Prop :=
  ∀ (c : Cond) (sf : Bool) (rn rd : Reg) (s : State), condPass c s.flags = true →
    EachForm (.movImm c sf rn rd) (.movShiftImm c sf rn rd) (.movShiftReg c sf rn rd) s fun i sc op2 =>
      HasOpcode i 0b1101 ∧
      Next i s (Lands s rd (op2) (logicalFlags sf rd sc (op2) s.flags))

/-- R188: BIC. -/
def Obligations.BicResult : Prop :=
  ∀ (c : Cond) (sf : Bool) (rn rd : Reg) (s : State), condPass c s.flags = true →
    EachForm (.bicImm c sf rn rd) (.bicShiftImm c sf rn rd) (.bicShiftReg c sf rn rd) s fun i sc op2 =>
      HasOpcode i 0b1110 ∧
      Next i s (Lands s rd (s.reg rn &&& ~~~op2) (logicalFlags sf rd sc (s.reg rn &&& ~~~op2) s.flags))

/-- R189: MVN. -/
def Obligations.MvnResult : Prop :=
  ∀ (c : Cond) (sf : Bool) (rn rd : Reg) (s : State), condPass c s.flags = true →
    EachForm (.mvnImm c sf rn rd) (.mvnShiftImm c sf rn rd) (.mvnShiftReg c sf rn rd) s fun i sc op2 =>
      HasOpcode i 0b1111 ∧
      Next i s (Lands s rd (~~~op2) (logicalFlags sf rd sc (~~~op2) s.flags))

/-- R190 (R104 (b)): the compare words with S = 0 are no-operations. -/
def Obligations.CompareWithoutS : Prop :=
  (∀ (w : Word) (s : State), classify w = .dataProcessing → field w 23 2 = 0b10 → bitAt w 20 = false →
    exec (decode w) s = .next s) ∧
  classify 0xE1010002 = .dataProcessing ∧ decode 0xE1010002 = .tstS0ShiftImm .al 1 0 ⟨0, .lsl, 2⟩

/-- R193: the addends of each opcode, and what its carry and overflow say of the exact integers. `c` is the C flag before the
instruction as a word of value 0 or 1. -/
def Obligations.AdderEquivalents : Prop :=
  ∀ (rn rd : Reg) (s : State), rd ≠ 15 →
    let a := s.reg rn
    let c : Word := if s.flags.c then 1 else 0
    let flags (t : State) (carry : Prop) (exact : Int) : Prop :=
      (t.flags.c = true ↔ carry) ∧ (t.flags.v = true ↔ exact < -2 ^ 31 ∨ 2 ^ 31 - 1 < exact)
    (EachForm (.subImm .al true rn rd) (.subShiftImm .al true rn rd) (.subShiftReg .al true rn rd) s fun i _ b =>
      Next i s fun t => t.reg rd = a - b ∧ flags t (b.toNat ≤ a.toNat) (signed a + signed (~~~b) + 1)) ∧
    (EachForm (.rsbImm .al true rn rd) (.rsbShiftImm .al true rn rd) (.rsbShiftReg .al true rn rd) s fun i _ b =>
      Next i s fun t => t.reg rd = b - a ∧ flags t (a.toNat ≤ b.toNat) (signed b + signed (~~~a) + 1)) ∧
    (EachForm (.addImm .al true rn rd) (.addShiftImm .al true rn rd) (.addShiftReg .al true rn rd) s fun i _ b =>
      Next i s fun t => t.reg rd = a + b ∧ flags t (2 ^ 32 ≤ a.toNat + b.toNat) (signed a + signed b)) ∧
    (EachForm (.adcImm .al true rn rd) (.adcShiftImm .al true rn rd) (.adcShiftReg .al true rn rd) s fun i _ b =>
      Next i s fun t => t.reg rd = a + b + c ∧ flags t (2 ^ 32 ≤ a.toNat + b.toNat + c.toNat) (signed a + signed b + c.toNat)) ∧
    (EachForm (.sbcImm .al true rn rd) (.sbcShiftImm .al true rn rd) (.sbcShiftReg .al true rn rd) s fun i _ b =>
      Next i s fun t => t.reg rd = a - b - (1 - c) ∧ flags t (b.toNat + (1 - c.toNat) ≤ a.toNat) (signed a + signed (~~~b) + c.toNat)) ∧
    (EachForm (.rscImm .al true rn rd) (.rscShiftImm .al true rn rd) (.rscShiftReg .al true rn rd) s fun i _ b =>
      Next i s fun t => t.reg rd = b - a - (1 - c) ∧ flags t (a.toNat + (1 - c.toNat) ≤ b.toNat) (signed b + signed (~~~a) + c.toNat)) ∧
    (EachForm (.cmpImm .al rn rd) (.cmpShiftImm .al rn rd) (.cmpShiftReg .al rn rd) s fun i _ b =>
      Next i s fun t => flags t (b.toNat ≤ a.toNat) (signed a + signed (~~~b) + 1)) ∧
    (EachForm (.cmnImm .al rn rd) (.cmnShiftImm .al rn rd) (.cmnShiftReg .al rn rd) s fun i _ b =>
      Next i s fun t => flags t (2 ^ 32 ≤ a.toNat + b.toNat) (signed a + signed b))

/-- The writers of the flags (R29 (a) to (c)): nothing else writes a flag. -/
def Obligations.FlagWriters : Prop :=
  ∀ (w : Word) (s t : State), exec (decode w) s = .next t → t.flags ≠ s.flags →
    condPass (Cond.ofBits (field w 28 4)) s.flags = true ∧ bitAt w 20 = true ∧
    ((classify w = .dataProcessing ∧ field w 12 4 ≠ 15 ∧
      (DpOp.ofBits (field w 21 4) ∈ [.and, .eor, .tst, .teq, .orr, .mov, .bic, .mvn] → t.flags.v = s.flags.v)) ∨
     (classify w = .longMultiply ∧ t.flags.c = s.flags.c ∧ t.flags.v = s.flags.v))

/-- R229: transfer address, and base after, of each addressing form. -/
def Obligations.AddressingForms : Prop :=
  ∀ base off : Word, let b : Int := base.toNat; let o : Int := off.toNat
    (transferAddress ⟨true, true, false⟩ base off = b + o ∧ writesBack ⟨true, true, false⟩ = false) ∧
    (transferAddress ⟨true, false, false⟩ base off = b - o ∧ writesBack ⟨true, false, false⟩ = false) ∧
    (transferAddress ⟨true, true, true⟩ base off = b + o ∧ writesBack ⟨true, true, true⟩ = true ∧
      writeBackValue ⟨true, true, true⟩ base off = base + off) ∧
    (transferAddress ⟨true, false, true⟩ base off = b - o ∧ writesBack ⟨true, false, true⟩ = true ∧
      writeBackValue ⟨true, false, true⟩ base off = base - off) ∧
    (∀ x, transferAddress ⟨false, true, x⟩ base off = b ∧ writesBack ⟨false, true, x⟩ = true ∧
      writeBackValue ⟨false, true, x⟩ base off = base + off) ∧
    (∀ x, transferAddress ⟨false, false, x⟩ base off = b ∧ writesBack ⟨false, false, x⟩ = true ∧
      writeBackValue ⟨false, false, x⟩ base off = base - off)

/-- R225: LDR. `off` is the offset (R221), `addr` the transfer address (R223). -/
def Obligations.LdrResult : Prop :=
  ∀ (c : Cond) (ix : Indexing) (rn rd : Reg) (s : State), condPass c s.flags = true →
    EachOffset (.ldrImm c ix rn rd) (.ldrReg c ix rn rd) s fun i off =>
      let addr := transferAddress ix (s.reg rn) off
      HasTransferBits i ix false true ∧
      (0 ≤ addr → addr + 4 ≤ s.ramSize → Next i s (Loads s ix rn rd off
          (wordOfBytes (s.byteAt addr.toNat) (s.byteAt (addr.toNat + 1)) (s.byteAt (addr.toNat + 2))
            (s.byteAt (addr.toNat + 3))))) ∧
      (addr < 0 ∨ (s.ramSize : Int) < addr + 4 → Next i s (FaultsAt s addr))

/-- R226: STR. `off` is the offset (R221), `addr` the transfer address (R223). -/
def Obligations.StrResult : Prop :=
  ∀ (c : Cond) (ix : Indexing) (rn rd : Reg) (s : State), condPass c s.flags = true → s.ram.wf →
    EachOffset (.strImm c ix rn rd) (.strReg c ix rn rd) s fun i off =>
      let addr := transferAddress ix (s.reg rn) off
      HasTransferBits i ix false false ∧
      (0 ≤ addr → addr + 4 ≤ s.ramSize → Next i s (Stores s ix rn rd off addr 4)) ∧
      (addr < 0 ∨ (s.ramSize : Int) < addr + 4 → Next i s (FaultsAt s addr))

/-- R227: LDRB. `off` is the offset (R221), `addr` the transfer address (R223). -/
def Obligations.LdrbResult : Prop :=
  ∀ (c : Cond) (ix : Indexing) (rn rd : Reg) (s : State), condPass c s.flags = true →
    EachOffset (.ldrbImm c ix rn rd) (.ldrbReg c ix rn rd) s fun i off =>
      let addr := transferAddress ix (s.reg rn) off
      HasTransferBits i ix true true ∧
      (0 ≤ addr → addr + 1 ≤ s.ramSize → Next i s (Loads s ix rn rd off ((s.byteAt addr.toNat).setWidth 32))) ∧
      (addr < 0 ∨ (s.ramSize : Int) < addr + 1 → Next i s (FaultsAt s addr))

/-- R228: STRB. `off` is the offset (R221), `addr` the transfer address (R223). -/
def Obligations.StrbResult : Prop :=
  ∀ (c : Cond) (ix : Indexing) (rn rd : Reg) (s : State), condPass c s.flags = true → s.ram.wf →
    EachOffset (.strbImm c ix rn rd) (.strbReg c ix rn rd) s fun i off =>
      let addr := transferAddress ix (s.reg rn) off
      HasTransferBits i ix true false ∧
      (0 ≤ addr → addr + 1 ≤ s.ramSize → Next i s (Stores s ix rn rd off addr 1)) ∧
      (addr < 0 ∨ (s.ramSize : Int) < addr + 1 → Next i s (FaultsAt s addr))

/-- The memory fault of a transfer (R230): before any write. The record's word and instruction address are read as log 4 says. -/
def Obligations.TransferFault : Prop :=
  ∀ (c : Cond) (ix : Indexing) (rn rd : Reg) (s : State), condPass c s.flags = true →
    let faults (n : Int) (i : Instr) (off : Word) : Prop :=
      let addr := transferAddress ix (s.reg rn) off
      addr < 0 ∨ (s.ramSize : Int) < addr + n →
        Next i s (OnlyLatches s ⟨.memoryFault, some .singleDataTransfer, some (encode i), some addr, s.pc - 4⟩)
    EachOffset (.ldrImm c ix rn rd) (.ldrReg c ix rn rd) s (faults 4) ∧
    EachOffset (.strImm c ix rn rd) (.strReg c ix rn rd) s (faults 4) ∧
    EachOffset (.ldrbImm c ix rn rd) (.ldrbReg c ix rn rd) s (faults 1) ∧
    EachOffset (.strbImm c ix rn rd) (.strbReg c ix rn rd) s (faults 1)

/-- R253: B. -/
def Obligations.BranchTarget : Prop :=
  ∀ (c : Cond) (imm24 : BitVec 24) (s : State), condPass c s.flags = true →
    Matches (.b c imm24) 0x0F000000 0x0A000000 ∧
    Next (.b c imm24) s fun t =>
      t.pc = BitVec.ofInt 32 (((s.pc - 4).toNat : Int) + 8 + branchDistance imm24) ∧ KeepsRegs s t [15] ∧
      t.flags = s.flags ∧ KeepsMemory s t ∧ KeepsLatch s t

/-- R254, R252: BL. -/
def Obligations.BranchLink : Prop :=
  ∀ (c : Cond) (imm24 : BitVec 24) (s : State), condPass c s.flags = true →
    Matches (.bl c imm24) 0x0F000000 0x0B000000 ∧
    Next (.bl c imm24) s fun t =>
      t.reg 14 = (s.pc - 4) + 4 ∧ t.reg 14 = s.pc ∧
      t.pc = BitVec.ofInt 32 (((s.pc - 4).toNat : Int) + 8 + branchDistance imm24) ∧ KeepsRegs s t [14, 15] ∧
      t.flags = s.flags ∧ KeepsMemory s t ∧ KeepsLatch s t

/-- R267: UMULL. -/
def Obligations.UmullResult : Prop :=
  ∀ (c : Cond) (sf : Bool) (rdHi rdLo rs rm : Reg) (s : State), condPass c s.flags = true →
    Matches (.umull c sf rdHi rdLo rs rm) 0x0FE000F0 0x00800090 ∧
    Next (.umull c sf rdHi rdLo rs rm) s (LongLands s sf rdHi rdLo
      (BitVec.ofNat 64 ((s.reg rm).toNat * (s.reg rs).toNat)))

/-- R268: UMLAL. -/
def Obligations.UmlalResult : Prop :=
  ∀ (c : Cond) (sf : Bool) (rdHi rdLo rs rm : Reg) (s : State), condPass c s.flags = true →
    Matches (.umlal c sf rdHi rdLo rs rm) 0x0FE000F0 0x00A00090 ∧
    Next (.umlal c sf rdHi rdLo rs rm) s (LongLands s sf rdHi rdLo
      (BitVec.ofNat 64 ((s.reg rm).toNat * (s.reg rs).toNat + ((s.reg rdHi).toNat * 2 ^ 32 + (s.reg rdLo).toNat))))

/-- R269: SMULL. -/
def Obligations.SmullResult : Prop :=
  ∀ (c : Cond) (sf : Bool) (rdHi rdLo rs rm : Reg) (s : State), condPass c s.flags = true →
    Matches (.smull c sf rdHi rdLo rs rm) 0x0FE000F0 0x00C00090 ∧
    Next (.smull c sf rdHi rdLo rs rm) s (LongLands s sf rdHi rdLo
      (BitVec.ofInt 64 (signed (s.reg rm) * signed (s.reg rs))))

/-- R270: SMLAL. -/
def Obligations.SmlalResult : Prop :=
  ∀ (c : Cond) (sf : Bool) (rdHi rdLo rs rm : Reg) (s : State), condPass c s.flags = true →
    Matches (.smlal c sf rdHi rdLo rs rm) 0x0FE000F0 0x00E00090 ∧
    Next (.smlal c sf rdHi rdLo rs rm) s (LongLands s sf rdHi rdLo
      (BitVec.ofInt 64 (signed (s.reg rm) * signed (s.reg rs) + ((s.reg rdHi).toNat * 2 ^ 32 + (s.reg rdLo).toNat : Nat))))

/-- The decode gaps of R281, R282, R284, R285, R286, R294, R295, R302. -/
def Obligations.GapsOfMultiplySwapStatus : Prop :=
  ∀ (c : Cond) (s : State), condPass c s.flags = true →
    let gap (mask pattern : Word) (category : Category) (i : Instr) : Prop := Matches i mask pattern ∧ Gaps i category s
    (∀ sf rd rn rs rm, gap 0x0FE000F0 0x00000090 .multiply (.mul c sf rd rn rs rm)) ∧
    (∀ sf rd rn rs rm, gap 0x0FE000F0 0x00200090 .multiply (.mla c sf rd rn rs rm)) ∧
    (∀ rn rd rm, gap 0x0FF00FF0 0x01000090 .singleDataSwap (.swp c rn rd rm)) ∧
    (∀ rn rd rm, gap 0x0FF00FF0 0x01400090 .singleDataSwap (.swpb c rn rd rm)) ∧
    (∀ rn, gap 0x0FFFFFF0 0x012FFF10 .branchExchange (.bx c rn)) ∧
    (∀ ps rd, gap 0x0FBF0FFF 0x010F0000 .mrs (.mrs c ps rd)) ∧
    (∀ pd rm, gap 0x0FBFFFF0 0x0129F000 .msr (.msr c pd rm)) ∧
    (∀ im pd operand, gap 0x0DBFF000 0x0128F000 .msrFlags (.msrFlags c im pd operand))

/-- The decode gaps of R287 to R291; the two reserved forms have `w[6:5]` 10 and 11. The premise `i.wf` leaves out no word of the
two categories: an L = 0 term with `P = 1`, `U = 0`, `W = 1`, `Rn = 8`, `Rd = 15` is ill-formed, its word being an MSRFlags word
(R87). -/
def Obligations.GapsOfHalfword : Prop :=
  ∀ (c : Cond) (ix : Indexing) (rn rd : Reg) (s : State), condPass c s.flags = true →
    let gap (mask pattern : Word) (category : Category) (i : Instr) : Prop :=
      i.wf = true → Matches i mask pattern ∧ Gaps i category s
    (∀ rm, let ofForm := fun pattern i => gap 0x0E500FF0 pattern .halfWordTransferRegister i
      ofForm 0x000000B0 (.strhReg c ix rn rd rm) ∧ ofForm 0x001000B0 (.ldrhReg c ix rn rd rm) ∧
      ofForm 0x001000D0 (.ldrsbReg c ix rn rd rm) ∧ ofForm 0x001000F0 (.ldrshReg c ix rn rd rm) ∧
      ofForm 0x000000D0 (.hwReservedRegSh2 c ix rn rd rm) ∧ ofForm 0x000000F0 (.hwReservedRegSh3 c ix rn rd rm)) ∧
    (∀ hi lo, let ofForm := fun pattern i => gap 0x0E5000F0 pattern .halfWordTransferImmediate i
      ofForm 0x004000B0 (.strhImm c ix rn rd hi lo) ∧ ofForm 0x005000B0 (.ldrhImm c ix rn rd hi lo) ∧
      ofForm 0x005000D0 (.ldrsbImm c ix rn rd hi lo) ∧ ofForm 0x005000F0 (.ldrshImm c ix rn rd hi lo) ∧
      ofForm 0x004000D0 (.hwReservedImmSh2 c ix rn rd hi lo) ∧ ofForm 0x004000F0 (.hwReservedImmSh3 c ix rn rd hi lo))

/-- The decode gaps of R292, R293, R296 to R301, R303. -/
def Obligations.GapsOfBlockCoprocSwi : Prop :=
  ∀ (c : Cond) (s : State), condPass c s.flags = true →
    let gap (mask pattern : Word) (category : Category) (i : Instr) : Prop := Matches i mask pattern ∧ Gaps i category s
    (∀ ix psr rn list, gap 0x0E100000 0x08100000 .blockDataTransfer (.ldm c ix psr rn list)) ∧
    (∀ ix psr rn list, gap 0x0E100000 0x08000000 .blockDataTransfer (.stm c ix psr rn list)) ∧
    (∀ ix n rn crd cp off, gap 0x0E100000 0x0C100000 .coprocDataTransfer (.ldc c ix n rn crd cp off)) ∧
    (∀ ix n rn crd cp off, gap 0x0E100000 0x0C000000 .coprocDataTransfer (.stc c ix n rn crd cp off)) ∧
    (∀ opc crn crd num cp crm, gap 0x0F000010 0x0E000000 .coprocDataOperation (.cdp c opc crn crd num cp crm)) ∧
    (∀ opc crn rd num cp crm, gap 0x0F100010 0x0E100010 .coprocRegisterTransfer (.mrc c opc crn rd num cp crm)) ∧
    (∀ opc crn rd num cp crm, gap 0x0F100010 0x0E000010 .coprocRegisterTransfer (.mcr c opc crn rd num cp crm)) ∧
    (∀ comment, gap 0x0F000000 0x0F000000 .softwareInterrupt (.swi c comment)) ∧
    (∀ hi lo, gap 0x0E000010 0x06000010 .undefined (.undefined c hi lo))

/-- R280: the stop, for good: no run goes on from it. -/
def Obligations.StepDecodeGap : Prop :=
  ∀ (s : State) (w : Word), s.halted = false → fetch s = some w →
    condPass (Cond.ofBits (field w 28 4)) s.flags = true → (classify w).executes = false →
    ∃ t, step s = .next t ∧ t.fault = some ⟨.decodeGap, some (classify w), some w, none, s.pc⟩ ∧ t.status = .halted ∧
      t.pc = s.pc + 4 ∧ KeepsRegs s t [15] ∧ t.flags = s.flags ∧ KeepsMemory s t ∧ t.ramSize = s.ramSize ∧
      (∀ limit, runLimit limit t = (0, t))

/-- A step runs the decoded instruction after the PC advance (R310, R312, R313, R315). -/
def Obligations.StepRunsDecodedInstruction : Prop :=
  ∀ (s : State) (i : Instr), s.fault = none → s.pc.toNat + 4 ≤ s.ramSize →
    decodeBytes [s.byteAt s.pc.toNat, s.byteAt (s.pc.toNat + 1), s.byteAt (s.pc.toNat + 2), s.byteAt (s.pc.toNat + 3)] =
      .ok (i, []) →
    step s = exec i (s.setPc (s.pc + 4))

/-- Halted is absorbing (R311, R34); the form of the report is log 1. -/
def Obligations.HaltedIsAbsorbing : Prop :=
  ∀ s : State,
    (step s = .fault .halted ↔ (s.fault ≠ none ∨ s.ramSize ≤ s.pc.toNat)) ∧
    (s.status = .halted ↔ (s.fault ≠ none ∨ s.ramSize ≤ s.pc.toNat)) ∧
    (s.status = .halted → ∀ limit, runLimit limit s = (0, s))

/-- R312: the fetch. -/
def Obligations.FetchWord : Prop :=
  ∀ s : State, s.halted = false →
    (s.pc.toNat + 4 ≤ s.ramSize → ∃ w, fetch s = some w ∧
      w.toNat = (s.byteAt s.pc.toNat).toNat + 2 ^ 8 * (s.byteAt (s.pc.toNat + 1)).toNat +
        2 ^ 16 * (s.byteAt (s.pc.toNat + 2)).toNat + 2 ^ 24 * (s.byteAt (s.pc.toNat + 3)).toNat) ∧
    (s.ramSize < s.pc.toNat + 4 → ∃ t, step s = .next t ∧
      OnlyLatches s ⟨.memoryFault, none, none, some s.pc.toNat, s.pc⟩ t ∧ t.pc = s.pc)

/-- Precise faults (R334, R316 (b)). -/
def Obligations.PreciseFaults : Prop :=
  ∀ s t : State, step s = .next t → s.fault = none ∧
    (t.fault = none ∨
      ((t.pc = s.pc + 4 ∨ (fetch s = none ∧ t.pc = s.pc)) ∧ KeepsRegs s t [15] ∧ t.flags = s.flags ∧ KeepsMemory s t ∧
        t.ramSize = s.ramSize))

/-- R58: mixed widths see one byte array. -/
def Obligations.ReadAfterWrite : Prop :=
  ∀ (s t : State) (a : Nat) (v : Word), s.ram.wf → memWrite s a .word v = some t →
    (∀ k : Nat, k < 4 → memRead t ((a : Int) + k) .byte = some ((v.extractLsb' (8 * k) 8).setWidth 32)) ∧
    (a + 5 ≤ s.ramSize → memRead t ((a : Int) + 1) .word = some (s.byteAt (a + 4) ++ v.extractLsb' 8 24))

/-- Self-modifying code needs no synchronisation (R65, R372). -/
def Obligations.StoreSeenByNextFetch : Prop :=
  ∀ (c : Cond) (ix : Indexing) (rn rd : Reg) (s : State), condPass c s.flags = true → s.ram.wf → s.fault = none →
    EachOffset (.strImm c ix rn rd) (.strReg c ix rn rd) s fun i off =>
      transferAddress ix (s.reg rn) off = s.pc.toNat → s.pc.toNat + 4 ≤ s.ramSize → (writesBack ix = true → rn ≠ 15) →
        Next i s fun t => fetch t = some (s.reg rd) ∧ step t = exec (decode (s.reg rd)) (t.setPc (t.pc + 4))

/-- The writers of memory (R32, R53, R60). -/
def Obligations.MemoryWriters : Prop :=
  ∀ (w : Word) (s t : State) (a : Nat), exec (decode w) s = .next t → t.byteAt a ≠ s.byteAt a →
    classify w = .singleDataTransfer ∧ bitAt w 20 = false ∧ condPass (Cond.ofBits (field w 28 4)) s.flags = true ∧
    (let addr := transferAddressOf w s
     let n : Int := if bitAt w 22 then 1 else 4
     0 ≤ addr ∧ addr + n ≤ s.ramSize ∧ addr ≤ a ∧ a < addr + n)

/-- The writers of the program counter (R25, R255). -/
def Obligations.PcWriters : Prop :=
  ∀ (w : Word) (s t : State), exec (decode w) s = .next t → t.pc ≠ s.pc →
    condPass (Cond.ofBits (field w 28 4)) s.flags = true ∧
    (classify w = .branch ∨
     (classify w = .dataProcessing ∧ field w 23 2 ≠ 0b10 ∧ field w 12 4 = 15) ∨
     (classify w = .singleDataTransfer ∧ bitAt w 20 = true ∧ field w 12 4 = 15) ∨
     (classify w = .singleDataTransfer ∧ (bitAt w 24 = false ∨ bitAt w 21 = true) ∧ field w 16 4 = 15) ∨
     (classify w = .longMultiply ∧ (field w 16 4 = 15 ∨ field w 12 4 = 15)))

/-- Every step keeps the invariant. -/
def Obligations.StepKeepsInvariant : Prop := ∀ s t : State, s.Inv → step s = .next t → t.Inv

/-- The invariant after Reset; the arguments of `State.reset` are log 2. -/
def Obligations.ResetInvariant : Prop :=
  (∀ (a : ResetArgs) (s : State), resetMachine a = some s → s.Inv) ∧ State.reset.Inv

/-- R360, R36: the state Reset creates, and that it creates none otherwise. -/
def Obligations.ResetState : Prop :=
  ∀ a : ResetArgs,
    (1 ≤ a.ramSize ∧ a.ramSize ≤ 2 ^ 32 ∧ a.image.length ≤ a.ramSize →
      ∃ s, resetMachine a = some s ∧ (∀ r : Reg, r.val ≤ 13 → s.reg r = 0) ∧
        s.reg 14 = (if a.lrPreset then BitVec.ofNat 32 a.ramSize else 0) ∧ s.reg 15 = a.startPc ∧
        s.flags = ⟨false, false, false, false⟩ ∧ (∀ (i : Nat) (h : i < a.image.length), s.byteAt i = a.image[i]) ∧
        (∀ i : Nat, a.image.length ≤ i → i < a.ramSize → s.byteAt i = 0) ∧ s.fault = none ∧ s.ramSize = a.ramSize) ∧
    (¬(1 ≤ a.ramSize ∧ a.ramSize ≤ 2 ^ 32 ∧ a.image.length ≤ a.ramSize) → resetMachine a = none)

end
end

