-- ==== Sys2Proof/Laws/Decode.lean ====
section
/-! SUPPORT. The bit-field view and the numberings: a field of an OR, of a placed field (the same, another, a part of it), that a
word is determined by its fields, and that each numbering and its inverse agree. The lemmas of a placed field ask for plain
arithmetic on literals, so that `simp` with a decision procedure as discharger rewrites a field of an encoded word to the
operand that stands there. -/

namespace Sys2Proof

/-! ## Numberings -/

@[simp] theorem Cond.ofBits_bits (c : Cond) : Cond.ofBits c.bits = c := by cases c <;> rfl
@[simp] theorem Cond.bits_ofBits : ∀ b : BitVec 4, (Cond.ofBits b).bits = b := by decide
@[simp] theorem ShiftMode.ofBits_bits (m : ShiftMode) : ShiftMode.ofBits m.bits = m := by cases m <;> rfl
@[simp] theorem ShiftMode.bits_ofBits : ∀ b : BitVec 2, (ShiftMode.ofBits b).bits = b := by decide
@[simp] theorem DpOp.ofBits_bits (op : DpOp) : DpOp.ofBits op.bits = op := by cases op <;> rfl
@[simp] theorem DpOp.bits_ofBits : ∀ b : BitVec 4, (DpOp.ofBits b).bits = b := by decide
@[simp] theorem Reg.ofBits_bits (r : Reg) : Reg.ofBits r.bits = r := rfl
@[simp] theorem Reg.bits_ofBits (b : BitVec 4) : (Reg.ofBits b).bits = b := rfl
@[simp] theorem Reg.toNat_bits (r : Reg) : r.bits.toNat = r.val := rfl

/-! ## Fields and bits -/

theorem getLsbD_field (w : Word) (lo len i : Nat) : (field w lo len).getLsbD i = (decide (i < len) && w.getLsbD (lo + i)) := by
  simp only [field, BitVec.getLsbD_extractLsb']

theorem getLsbD_place (lo : Nat) {len : Nat} (v : BitVec len) (i : Nat) :
    (place lo v).getLsbD i = (decide (i < 32) && (decide (lo ≤ i) && v.getLsbD (i - lo))) := by
  simp only [place, BitVec.getLsbD_shiftLeft, BitVec.getLsbD_setWidth]
  by_cases h1 : i < 32
  · have h3 : i - lo < 32 := by omega
    by_cases h2 : i < lo
    · have h4 : ¬ lo ≤ i := by omega
      simp only [h1, h2, h3, h4, decide_true, decide_false, Bool.not_true, Bool.and_false, Bool.false_and, Bool.true_and]
    · have h4 : lo ≤ i := by omega
      simp only [h1, h2, h3, h4, decide_true, decide_false, Bool.not_false, Bool.true_and]
  · simp only [h1, decide_false, Bool.false_and]

/-- Bit `i` of a word is its field of width 1. -/
theorem bitAt_eq_field (w : Word) (i : Nat) : BitVec.ofBool (bitAt w i) = field w i 1 := by
  apply BitVec.eq_of_getLsbD_eq
  intro j hj
  obtain rfl : j = 0 := by omega
  simp only [getLsbD_field, bitAt, BitVec.getLsbD_ofBool, hj, decide_true, Bool.true_and, Nat.add_zero]

theorem bitAt_of_field {w : Word} {lo len : Nat} {v : BitVec len} (h : field w lo len = v) {i : Nat} (hi : i < len) :
    bitAt w (lo + i) = v.getLsbD i := by
  rw [← h, getLsbD_field]; simp only [hi, bitAt, decide_true, Bool.true_and]

@[simp] theorem field_or (a b : Word) (lo len : Nat) : field (a ||| b) lo len = field a lo len ||| field b lo len := by
  apply BitVec.eq_of_getLsbD_eq
  intro i hi
  simp only [getLsbD_field, BitVec.getLsbD_or, hi, decide_true, Bool.true_and]

@[simp] theorem bitAt_or (a b : Word) (i : Nat) : bitAt (a ||| b) i = (bitAt a i || bitAt b i) := by
  simp only [bitAt, BitVec.getLsbD_or]

/-- The field just placed. -/
theorem field_place_same {lo len : Nat} (v : BitVec len) (h : lo + len ≤ 32) : field (place lo v) lo len = v := by
  apply BitVec.eq_of_getLsbD_eq
  intro i hi
  have h1 : lo + i < 32 := by omega
  have h2 : lo ≤ lo + i := by omega
  simp only [getLsbD_field, getLsbD_place, hi, h1, h2, decide_true, Bool.true_and, Nat.add_sub_cancel_left]

/-- A field that lies beside the placed one. -/
theorem field_place_other {lo len lo' len' : Nat} (v : BitVec len) (h : lo + len ≤ lo' ∨ lo' + len' ≤ lo) :
    field (place lo v) lo' len' = 0 := by
  apply BitVec.eq_of_getLsbD_eq
  intro i hi
  simp only [getLsbD_field, getLsbD_place, BitVec.ofNat_eq_ofNat, BitVec.getLsbD_zero]
  rcases h with h | h
  · rw [BitVec.getLsbD_of_ge v _ (by omega)]; simp
  · have : ¬ lo ≤ lo' + i := by omega
    simp [this]

/-- A part of the placed field. -/
theorem field_place_part {lo len lo' len' : Nat} (v : BitVec len) (h : lo ≤ lo') (h' : lo' + len' ≤ 32) :
    field (place lo v) lo' len' = v.extractLsb' (lo' - lo) len' := by
  apply BitVec.eq_of_getLsbD_eq
  intro i hi
  have h1 : lo' + i < 32 := by omega
  have h2 : lo ≤ lo' + i := by omega
  have h3 : lo' + i - lo = lo' - lo + i := by omega
  simp only [getLsbD_field, getLsbD_place, hi, h1, h2, h3, BitVec.getLsbD_extractLsb', decide_true, Bool.true_and]

theorem bitAt_place_same {lo len i : Nat} (v : BitVec len) (h : lo ≤ i) (h' : i < 32) :
    bitAt (place lo v) i = v.getLsbD (i - lo) := by
  simp only [bitAt, getLsbD_place, h, h', decide_true, Bool.true_and]

theorem bitAt_place_other {lo len i : Nat} (v : BitVec len) (h : i < lo ∨ lo + len ≤ i) : bitAt (place lo v) i = false := by
  simp only [bitAt, getLsbD_place]
  rcases h with h | h
  · have : ¬ lo ≤ i := by omega
    simp [this]
  · rw [BitVec.getLsbD_of_ge v _ (by omega)]; simp

/-- A field of a literal word. -/
theorem field_ofNat (n lo len : Nat) : field (BitVec.ofNat 32 n) lo len = BitVec.ofNat len ((n % 2 ^ 32) >>> lo) := by
  simp only [field, BitVec.extractLsb', BitVec.toNat_ofNat]

/-- A bit of a literal word. -/
theorem bitAt_ofNat (n i : Nat) : bitAt (BitVec.ofNat 32 n) i = (decide (i < 32) && n.testBit i) := by
  simp only [bitAt, BitVec.getLsbD_ofNat]

/-- A mask over an OR. -/
theorem or_and_mask (a b m : Word) : (a ||| b) &&& m = (a &&& m) ||| (b &&& m) := by
  apply BitVec.eq_of_getLsbD_eq
  intro i hi
  simp only [BitVec.getLsbD_and, BitVec.getLsbD_or, Bool.and_or_distrib_right]

/-- A placed field under a mask that is 0 over it. -/
theorem place_and_mask {lo len : Nat} (v : BitVec len) (m : Word)
    (h : ∀ i, i < len → lo + i < 32 → m.getLsbD (lo + i) = false) : place lo v &&& m = 0 := by
  apply BitVec.eq_of_getLsbD_eq
  intro i hi
  rw [BitVec.getLsbD_and, getLsbD_place]
  by_cases h1 : lo ≤ i
  · by_cases h2 : i - lo < len
    · have := h (i - lo) h2 (by omega)
      rw [show lo + (i - lo) = i by omega] at this
      simp [this]
    · rw [BitVec.getLsbD_of_ge v _ (by omega)]; simp
  · simp [h1]

/-- A field is its low part and its high part. -/
theorem field_eq_iff {w : Word} {lo a b : Nat} {x : BitVec (a + b)} :
    field w lo (a + b) = x ↔ field w lo a = x.extractLsb' 0 a ∧ field w (lo + a) b = x.extractLsb' a b := by
  constructor
  · rintro rfl
    constructor <;> (apply BitVec.eq_of_getLsbD_eq; intro i hi)
    · have : i < a + b := by omega
      simp only [getLsbD_field, BitVec.getLsbD_extractLsb', hi, this, decide_true, Bool.true_and, Nat.zero_add]
    · have : a + i < a + b := by omega
      simp only [getLsbD_field, BitVec.getLsbD_extractLsb', hi, this, decide_true, Bool.true_and, Nat.add_assoc]
  · rintro ⟨h1, h2⟩
    apply BitVec.eq_of_getLsbD_eq
    intro i hi
    by_cases h : i < a
    · have := congrArg (fun v => v.getLsbD i) h1
      simpa only [getLsbD_field, BitVec.getLsbD_extractLsb', h, hi, decide_true, Bool.true_and, Nat.zero_add] using this
    · have := congrArg (fun v => v.getLsbD (i - a)) h2
      have e1 : i - a < b := by omega
      have e2 : lo + a + (i - a) = lo + i := by omega
      have e3 : a + (i - a) = i := by omega
      simpa only [getLsbD_field, BitVec.getLsbD_extractLsb', hi, e1, e2, e3, decide_true, Bool.true_and] using this

/-- A placed field is its two parts, placed. -/
theorem place_field_split (w : Word) (lo a b : Nat) :
    place lo (field w lo (a + b)) = place (lo + a) (field w (lo + a) b) ||| place lo (field w lo a) := by
  apply BitVec.eq_of_getLsbD_eq
  intro i hi
  simp only [BitVec.getLsbD_or, getLsbD_place, getLsbD_field, hi, decide_true, Bool.true_and]
  by_cases h1 : lo ≤ i
  · have e : lo + (i - lo) = i := by omega
    by_cases h2 : lo + a ≤ i
    · have e' : lo + a + (i - (lo + a)) = i := by omega
      have h3 : ¬ i - lo < a := by omega
      have h4 : (i - lo < a + b) = (i - (lo + a) < b) := by apply propext; omega
      simp only [h1, h2, h3, h4, e, e', decide_true, decide_false, Bool.true_and, Bool.false_and, Bool.or_false]
    · have h3 : i - lo < a := by omega
      have h4 : i - lo < a + b := by omega
      simp only [h1, h2, h3, h4, decide_true, decide_false, Bool.true_and, Bool.false_and, Bool.false_or]
  · have h2 : ¬ lo + a ≤ i := by omega
    simp only [h1, h2, decide_false, Bool.false_and, Bool.or_false]

/-- The whole word as one field. -/
theorem place_field_whole (w : Word) : place 0 (field w 0 32) = w := by
  apply BitVec.eq_of_getLsbD_eq
  intro i hi
  simp only [getLsbD_place, getLsbD_field, hi, Nat.zero_le, decide_true, Bool.true_and, Nat.sub_zero, Nat.zero_add]

/-! ## Bytes -/

/-- Four bytes decode to the instruction of the word they compose, and leave the rest. -/
theorem decodeBytes_four (b0 b1 b2 b3 : Byte) (rest : List Byte) :
    decodeBytes (b0 :: b1 :: b2 :: b3 :: rest) = .ok (decode (wordOfBytes b0 b1 b2 b3), rest) := rfl

theorem toNat_wordOfBytes (b0 b1 b2 b3 : Byte) :
    (wordOfBytes b0 b1 b2 b3).toNat = b0.toNat + 2 ^ 8 * b1.toNat + 2 ^ 16 * b2.toNat + 2 ^ 24 * b3.toNat := by
  have h0 := b0.isLt; have h1 := b1.isLt; have h2 := b2.isLt; have h3 := b3.isLt
  simp only [wordOfBytes, BitVec.toNat_append]
  rw [← Nat.shiftLeft_add_eq_or_of_lt h0, ← Nat.shiftLeft_add_eq_or_of_lt h1, ← Nat.shiftLeft_add_eq_or_of_lt h2]
  simp only [Nat.shiftLeft_eq]
  omega

/-! ## Terms whose word MSRFlags claims (R87) -/

@[simp] theorem claimedByMsrFlags_eq_true {rn rd : Reg} : claimedByMsrFlags rn rd = true ↔ rn = 8 ∧ rd = 15 := by
  simp [claimedByMsrFlags]

@[simp] theorem Indexing.claimedByMsrFlags_eq_true {ix : Indexing} {rn rd : Reg} :
    ix.claimedByMsrFlags rn rd = true ↔ ix = ⟨true, false, true⟩ ∧ rn = 8 ∧ rd = 15 := by
  obtain ⟨p, u, w⟩ := ix
  cases p <;> cases u <;> cases w <;> simp [Indexing.claimedByMsrFlags]

end Sys2Proof
end

