-- ==== Sys2Proof/Laws/Memory.lean ====
section
/-! SUPPORT. RAM: a read after a write (`spec/20_memory.md` R53, R58, R60), that every memory operation keeps the canonical
form, and that canonical memories with the same bytes are equal. -/

namespace Sys2Proof.Machine

/-! ## The canonical form and one byte -/

theorem Memory.wf_nil : Memory.wf [] := ⟨.nil, by simp⟩

theorem Memory.wf_tail {x : Host.Cell} {m : Memory} (h : Memory.wf (x :: m)) : Memory.wf m :=
  ⟨(List.pairwise_cons.mp h.1).2, fun y hy => h.2 y (List.mem_cons_of_mem _ hy)⟩

theorem Memory.wf_cons {x : Host.Cell} {m : Memory} :
    Memory.wf (x :: m) ↔ (∀ y ∈ m, x.1 < y.1) ∧ x.2 ≠ Memory.blank ∧ Memory.wf m := by
  simp only [Memory.wf, List.pairwise_cons, List.mem_cons, forall_eq_or_imp]
  constructor
  · rintro ⟨⟨h1, h2⟩, h3, h4⟩; exact ⟨h1, h3, h2, h4⟩
  · rintro ⟨h1, h3, h2, h4⟩; exact ⟨⟨h1, h2⟩, h3, h4⟩

/-- An address below every listed one reads as blank. -/
theorem Memory.get_eq_blank {m : Memory} {a : Nat} (h : ∀ x ∈ m, a < x.1) : m.get a = Memory.blank := by
  induction m with
  | nil => rfl
  | cons x m ih =>
    have hx : x.1 ≠ a := Nat.ne_of_gt (h x (List.mem_cons_self ..))
    simp only [Memory.get, hx, if_false]
    exact ih fun y hy => h y (List.mem_cons_of_mem _ hy)

/-- A write adds no address but its own. -/
theorem Memory.mem_set {m : Memory} {a : Nat} {b : Byte} {x : Host.Cell} (h : x ∈ m.set a b) : x ∈ m ∨ x = (a, b) := by
  induction m with
  | nil => simp only [Memory.set] at h; split at h <;> simp_all
  | cons y m ih =>
    simp only [Memory.set] at h
    split at h
    · rcases List.mem_cons.mp h with h | h
      · exact .inl (h ▸ List.mem_cons_self ..)
      · exact (ih h).imp (List.mem_cons_of_mem _) id
    · split at h <;> split at h <;> simp_all <;> tauto

theorem Memory.set_wf {m : Memory} (h : m.wf) (a : Nat) (b : Byte) : (m.set a b).wf := by
  induction m with
  | nil => simp only [Memory.set]; split <;> simp_all [Memory.wf]
  | cons x m ih =>
    obtain ⟨hx, hb, hm⟩ := Memory.wf_cons.mp h
    simp only [Memory.set]
    split
    next hlt =>
      refine Memory.wf_cons.mpr ⟨fun y hy => ?_, hb, ih hm⟩
      rcases Memory.mem_set hy with hy | rfl
      · exact hx y hy
      · exact hlt
    next hlt =>
      split
      next heq =>
        split
        · exact hm
        next hne => exact Memory.wf_cons.mpr ⟨fun y hy => heq ▸ hx y hy, hne, hm⟩
      next hne =>
        split
        · exact h
        next hnb =>
          have hax : a < x.1 := by omega
          refine Memory.wf_cons.mpr ⟨fun y hy => ?_, hnb, h⟩
          rcases List.mem_cons.mp hy with rfl | hy
          · exact hax
          · exact Nat.lt_trans hax (hx y hy)

/-- The byte read after a byte is written. -/
theorem Memory.get_set {m : Memory} (h : m.wf) (a : Nat) (b : Byte) (q : Nat) :
    (m.set a b).get q = if q = a then b else m.get q := by
  induction m with
  | nil =>
    simp only [Memory.set]
    split <;> simp_all [Memory.get, eq_comm]
  | cons x m ih =>
    obtain ⟨hx, hb, hm⟩ := Memory.wf_cons.mp h
    simp only [Memory.set]
    split
    next hlt =>
      simp only [Memory.get, ih hm]
      by_cases hq : x.1 = q
      · have : q ≠ a := by omega
        simp [hq, this]
      · simp [hq]
    next hlt =>
      split
      next heq =>
        split
        next hbl =>
          by_cases hq : q = a
          · subst hq; subst hbl; simp only [if_true]
            exact Memory.get_eq_blank fun y hy => heq ▸ hx y hy
          · have : x.1 ≠ q := by omega
            simp [Memory.get, hq, this]
        next hne =>
          have hxa : x.1 = a := heq
          by_cases hq : q = a
          · simp [Memory.get, hq]
          · have h1 : a ≠ q := by omega
            simp [Memory.get, hq, hxa, h1]
      next hne =>
        have hax : a < x.1 := by omega
        split
        next hbl =>
          by_cases hq : q = a
          · subst hq; subst hbl; simp only [if_true]
            refine Memory.get_eq_blank fun y hy => ?_
            rcases List.mem_cons.mp hy with rfl | hy
            · exact hax
            · exact Nat.lt_trans hax (hx y hy)
          · simp [hq]
        next hnb => simp [Memory.get, eq_comm]

/-- The byte read at another address, whatever the form of the memory. -/
theorem Memory.get_set_ne (m : Memory) {a q : Nat} (b : Byte) (hq : q ≠ a) : (m.set a b).get q = m.get q := by
  induction m with
  | nil => simp only [Memory.set]; split <;> simp [Memory.get, Ne.symm hq]
  | cons x m ih =>
    simp only [Memory.set]
    split
    · simp [Memory.get, ih]
    next hlt =>
      split
      next heq =>
        have h1 : x.1 ≠ q := by omega
        have h2 : a ≠ q := by omega
        split <;> simp [Memory.get, h1, h2]
      next hne =>
        have h2 : a ≠ q := by omega
        split <;> simp [Memory.get, h2]

/-- A write below a bound keeps every listed address below it. -/
theorem Memory.set_bounded {m : Memory} {n a : Nat} (h : ∀ x ∈ m, x.1 < n) (ha : a < n) (b : Byte) :
    ∀ x ∈ m.set a b, x.1 < n := fun x hx => by
  rcases Memory.mem_set hx with hx | rfl
  · exact h x hx
  · exact ha

/-- Canonical memories that read alike are equal. -/
theorem Memory.ext_get {m n : Memory} (hm : m.wf) (hn : n.wf) (h : ∀ a, m.get a = n.get a) : m = n := by
  induction m generalizing n with
  | nil =>
    cases n with
    | nil => rfl
    | cons y n =>
      obtain ⟨_, hb, _⟩ := Memory.wf_cons.mp hn
      exact absurd (h y.1).symm (by simp [Memory.get, hb])
  | cons x m ih =>
    obtain ⟨hx, hbx, hmw⟩ := Memory.wf_cons.mp hm
    cases n with
    | nil => exact absurd (h x.1) (by simp [Memory.get, hbx])
    | cons y n =>
      obtain ⟨hy, hby, hnw⟩ := Memory.wf_cons.mp hn
      have key : x.1 = y.1 := by
        rcases Nat.lt_trichotomy x.1 y.1 with hlt | heq | hgt
        · have h1 := h x.1
          rw [Memory.get_eq_blank (m := y :: n) (a := x.1)] at h1
          · exact absurd h1 (by simp [Memory.get, hbx])
          · intro z hz
            rcases List.mem_cons.mp hz with rfl | hz
            · exact hlt
            · exact Nat.lt_trans hlt (hy z hz)
        · exact heq
        · have h1 := h y.1
          rw [Memory.get_eq_blank (m := x :: m) (a := y.1)] at h1
          · exact absurd h1.symm (by simp [Memory.get, hby])
          · intro z hz
            rcases List.mem_cons.mp hz with rfl | hz
            · exact hgt
            · exact Nat.lt_trans hgt (hx z hz)
      have val : x.2 = y.2 := by have h1 := h x.1; simpa [Memory.get, key] using h1
      have tail : m = n := by
        refine ih hmw hnw fun a => ?_
        by_cases ha : x.1 = a
        · rw [Memory.get_eq_blank (ha ▸ hx), Memory.get_eq_blank fun z hz => ha ▸ key ▸ hy z hz]
        · have h1 := h a
          have ha' : y.1 ≠ a := key ▸ ha
          simpa [Memory.get, ha, ha'] using h1
      rw [tail, show x = y from Prod.ext key val]

/-! ## The image -/

theorem Memory.ofBytes_ge (a : Nat) (l : List Byte) : ∀ x ∈ Memory.ofBytes a l, a ≤ x.1 := by
  induction l generalizing a with
  | nil => simp [Memory.ofBytes]
  | cons b l ih =>
    intro x hx
    simp only [Memory.ofBytes] at hx
    split at hx
    · have := ih _ _ hx; omega
    · rcases List.mem_cons.mp hx with rfl | hx
      · exact Nat.le_refl _
      · have := ih _ _ hx; omega

theorem Memory.ofBytes_lt (a : Nat) (l : List Byte) : ∀ x ∈ Memory.ofBytes a l, x.1 < a + l.length := by
  induction l generalizing a with
  | nil => simp [Memory.ofBytes]
  | cons b l ih =>
    intro x hx
    simp only [Memory.ofBytes] at hx
    simp only [List.length_cons]
    split at hx
    · have := ih _ _ hx; omega
    · rcases List.mem_cons.mp hx with rfl | hx
      · show a < _; omega
      · have := ih _ _ hx; omega

theorem Memory.ofBytes_wf (a : Nat) (l : List Byte) : (Memory.ofBytes a l).wf := by
  induction l generalizing a with
  | nil => exact Memory.wf_nil
  | cons b l ih =>
    simp only [Memory.ofBytes]
    split
    · exact ih _
    next h => exact Memory.wf_cons.mpr ⟨fun y hy => Memory.ofBytes_ge (a + 1) l y hy, h, ih _⟩

/-- The image lies at its place, and what lies beyond it is blank (R360, R361). -/
theorem Memory.get_ofBytes (a : Nat) (l : List Byte) (q : Nat) :
    (Memory.ofBytes a l).get q = if a ≤ q then l.getD (q - a) Memory.blank else Memory.blank := by
  induction l generalizing a with
  | nil => simp [Memory.ofBytes, Memory.get]
  | cons b l ih =>
    rcases Nat.lt_trichotomy q a with hlt | rfl | hgt
    · have hna : ¬ a ≤ q := by omega
      rw [if_neg hna]
      exact Memory.get_eq_blank fun x hx => Nat.lt_of_lt_of_le hlt (Memory.ofBytes_ge _ _ x hx)
    · simp only [Memory.ofBytes]
      split
      next h => rw [Memory.get_eq_blank fun x hx => Memory.ofBytes_ge (q + 1) l x hx]; simp [h]
      · simp [Memory.get]
    · have h1 : q - a = (q - (a + 1)) + 1 := by omega
      have h2 : a ≤ q := by omega
      have h3 : a + 1 ≤ q := hgt
      have h4 : a ≠ q := by omega
      simp only [Memory.ofBytes]
      split <;> simp [Memory.get, ih, h1, h3, h4]

/-! ## Words -/

theorem Memory.setWord_wf {m : Memory} (h : m.wf) (a : Nat) (v : Word) : (m.setWord a v).wf :=
  Memory.set_wf (Memory.set_wf (Memory.set_wf (Memory.set_wf h _ _) _ _) _ _) _ _

/-- The byte read after a word is written: byte `k` of the word at `a + k` (R53, R58). -/
theorem Memory.get_setWord {m : Memory} (h : m.wf) (a : Nat) (v : Word) (q : Nat) :
    (m.setWord a v).get q =
      if q = a + 3 then v.extractLsb' 24 8 else if q = a + 2 then v.extractLsb' 16 8
      else if q = a + 1 then v.extractLsb' 8 8 else if q = a then v.extractLsb' 0 8 else m.get q := by
  have h1 := Memory.set_wf h a (v.extractLsb' 0 8)
  have h2 := Memory.set_wf h1 (a + 1) (v.extractLsb' 8 8)
  have h3 := Memory.set_wf h2 (a + 2) (v.extractLsb' 16 8)
  simp only [Memory.setWord]
  rw [Memory.get_set h3, Memory.get_set h2, Memory.get_set h1, Memory.get_set h]

/-- A byte outside the four is unchanged, whatever the form of the memory (R53). -/
theorem Memory.get_setWord_ne (m : Memory) {a q : Nat} (v : Word) (hq : q < a ∨ a + 4 ≤ q) :
    (m.setWord a v).get q = m.get q := by
  simp only [Memory.setWord]
  rw [Memory.get_set_ne _ _ (by omega), Memory.get_set_ne _ _ (by omega), Memory.get_set_ne _ _ (by omega),
    Memory.get_set_ne _ _ (by omega)]

theorem Memory.setWord_bounded {m : Memory} {n a : Nat} (h : ∀ x ∈ m, x.1 < n) (ha : a + 4 ≤ n) (v : Word) :
    ∀ x ∈ m.setWord a v, x.1 < n :=
  Memory.set_bounded (Memory.set_bounded (Memory.set_bounded (Memory.set_bounded h (by omega) _) (by omega) _)
    (by omega) _) (by omega) _

/-- A word from its bytes is the word (R52, R53). -/
theorem wordOfBytes_extract (v : Word) :
    wordOfBytes (v.extractLsb' 0 8) (v.extractLsb' 8 8) (v.extractLsb' 16 8) (v.extractLsb' 24 8) = v := by
  apply BitVec.eq_of_getLsbD_eq
  intro i hi
  simp only [wordOfBytes, BitVec.getLsbD_append, BitVec.getLsbD_extractLsb']
  grind

/-- A word read back after it is written (R58). -/
theorem Memory.getWord_setWord {m : Memory} (h : m.wf) (a : Nat) (v : Word) : (m.setWord a v).getWord a = v := by
  simp only [Memory.getWord, Memory.get_setWord h]
  simpa using wordOfBytes_extract v

end Sys2Proof.Machine
end

