-- ==== Sys2Proof/Laws/State.lean ====
section
/-! SUPPORT. The record updates of State, field by field, so that no proof unfolds one: what `setReg`, `setFlags`, `setRam`
and `raise` leave of each field and of each register, and extensionality of State over its registers. -/

namespace Sys2Proof.Machine

/-! ## `setReg` -/

@[simp] theorem State.reg_setReg (s : State) (r q : Reg) (v : Word) :
    (s.setReg r v).reg q = if r = q then v else s.reg q := by
  simp only [State.reg, State.setReg, Vector.getElem_set, Fin.ext_iff]

theorem State.reg_setReg_same (s : State) (r : Reg) (v : Word) : (s.setReg r v).reg r = v := by simp

theorem State.reg_setReg_ne (s : State) {r q : Reg} (v : Word) (h : q ≠ r) : (s.setReg r v).reg q = s.reg q := by
  simp [h.symm]

@[simp] theorem State.flags_setReg (s : State) (r : Reg) (v : Word) : (s.setReg r v).flags = s.flags := rfl
@[simp] theorem State.ram_setReg (s : State) (r : Reg) (v : Word) : (s.setReg r v).ram = s.ram := rfl
@[simp] theorem State.ramSize_setReg (s : State) (r : Reg) (v : Word) : (s.setReg r v).ramSize = s.ramSize := rfl
@[simp] theorem State.fault_setReg (s : State) (r : Reg) (v : Word) : (s.setReg r v).fault = s.fault := rfl
@[simp] theorem State.byteAt_setReg (s : State) (r : Reg) (v : Word) (a : Nat) :
    (s.setReg r v).byteAt a = s.byteAt a := rfl

/-! ## `setFlags` -/

@[simp] theorem State.reg_setFlags (s : State) (f : Flags) (q : Reg) : (s.setFlags f).reg q = s.reg q := rfl
@[simp] theorem State.regs_setFlags (s : State) (f : Flags) : (s.setFlags f).regs = s.regs := rfl
@[simp] theorem State.flags_setFlags (s : State) (f : Flags) : (s.setFlags f).flags = f := rfl
@[simp] theorem State.ram_setFlags (s : State) (f : Flags) : (s.setFlags f).ram = s.ram := rfl
@[simp] theorem State.ramSize_setFlags (s : State) (f : Flags) : (s.setFlags f).ramSize = s.ramSize := rfl
@[simp] theorem State.fault_setFlags (s : State) (f : Flags) : (s.setFlags f).fault = s.fault := rfl
@[simp] theorem State.byteAt_setFlags (s : State) (f : Flags) (a : Nat) : (s.setFlags f).byteAt a = s.byteAt a := rfl
@[simp] theorem State.setFlags_self (s : State) : s.setFlags s.flags = s := rfl

/-! ## `setRam` -/

@[simp] theorem State.reg_setRam (s : State) (m : Memory) (q : Reg) : (s.setRam m).reg q = s.reg q := rfl
@[simp] theorem State.regs_setRam (s : State) (m : Memory) : (s.setRam m).regs = s.regs := rfl
@[simp] theorem State.flags_setRam (s : State) (m : Memory) : (s.setRam m).flags = s.flags := rfl
@[simp] theorem State.ram_setRam (s : State) (m : Memory) : (s.setRam m).ram = m := rfl
@[simp] theorem State.ramSize_setRam (s : State) (m : Memory) : (s.setRam m).ramSize = s.ramSize := rfl
@[simp] theorem State.fault_setRam (s : State) (m : Memory) : (s.setRam m).fault = s.fault := rfl
@[simp] theorem State.byteAt_setRam (s : State) (m : Memory) (a : Nat) : (s.setRam m).byteAt a = m.get a := rfl

/-! ## `raise` -/

@[simp] theorem reg_raise (f : FaultRecord) (s : State) (q : Reg) : (raise f s).reg q = s.reg q := rfl
@[simp] theorem regs_raise (f : FaultRecord) (s : State) : (raise f s).regs = s.regs := rfl
@[simp] theorem flags_raise (f : FaultRecord) (s : State) : (raise f s).flags = s.flags := rfl
@[simp] theorem ram_raise (f : FaultRecord) (s : State) : (raise f s).ram = s.ram := rfl
@[simp] theorem ramSize_raise (f : FaultRecord) (s : State) : (raise f s).ramSize = s.ramSize := rfl
@[simp] theorem fault_raise (f : FaultRecord) (s : State) : (raise f s).fault = some f := rfl
@[simp] theorem byteAt_raise (f : FaultRecord) (s : State) (a : Nat) : (raise f s).byteAt a = s.byteAt a := rfl

/-! ## The program counter and the PC advance -/

theorem State.pc_eq (s : State) : s.pc = s.reg 15 := rfl
@[simp] theorem State.pc_setFlags (s : State) (f : Flags) : (s.setFlags f).pc = s.pc := rfl
@[simp] theorem State.pc_setRam (s : State) (m : Memory) : (s.setRam m).pc = s.pc := rfl
@[simp] theorem pc_raise (f : FaultRecord) (s : State) : (raise f s).pc = s.pc := rfl
@[simp] theorem State.pc_setPc (s : State) (v : Word) : (s.setPc v).pc = v := by simp [State.pc, State.setPc]
theorem State.pc_setReg_ne (s : State) {r : Reg} (v : Word) (h : r ≠ 15) : (s.setReg r v).pc = s.pc := by
  simp [State.pc, h]

@[simp] theorem flags_advancePc (s : State) : (advancePc s).flags = s.flags := rfl
@[simp] theorem ram_advancePc (s : State) : (advancePc s).ram = s.ram := rfl
@[simp] theorem ramSize_advancePc (s : State) : (advancePc s).ramSize = s.ramSize := rfl
@[simp] theorem fault_advancePc (s : State) : (advancePc s).fault = s.fault := rfl
@[simp] theorem byteAt_advancePc (s : State) (a : Nat) : (advancePc s).byteAt a = s.byteAt a := rfl
@[simp] theorem pc_advancePc (s : State) : (advancePc s).pc = s.pc + 4 := State.pc_setPc s _
theorem reg_advancePc (s : State) (q : Reg) : (advancePc s).reg q = if q = 15 then s.pc + 4 else s.reg q := by
  simp [advancePc, State.setPc, eq_comm]

/-! ## Extensionality -/

theorem State.ext_reg {s t : State} (hr : ∀ q, s.reg q = t.reg q) (hf : s.flags = t.flags) (hm : s.ram = t.ram)
    (hn : s.ramSize = t.ramSize) (hl : s.fault = t.fault) : s = t := by
  have h : s.regs = t.regs := Vector.ext fun i hi => hr ⟨i, hi⟩
  cases s; cases t; simp_all

theorem State.setReg_reg_self (s : State) (r : Reg) : s.setReg r (s.reg r) = s :=
  State.ext_reg (by intro q; by_cases h : r = q <;> simp [h]) rfl rfl rfl rfl

end Sys2Proof.Machine
end

