-- ==== Sys2Proof/Laws/Ops.lean ====
section
/-! SUPPORT. One lemma for each shared operation that says all it can do: memory accesses, the condition guard, where a result
lands, the transfer unit, the branch unit, the long multiply; and the adder as arithmetic on integers. -/

namespace Sys2Proof.Machine

/-! ## Bounds and accesses (R52 to R54) -/

theorem inBounds_iff {size : Nat} {addr : Int} {n : Width} :
    inBounds size addr n = true ↔ 0 ≤ addr ∧ addr + n.bytes ≤ size := by simp [inBounds]

theorem memRead_of_inBounds {s : State} {addr : Int} {n : Width} (h : inBounds s.ramSize addr n = true) :
    memRead s addr n = some (match n with
      | .byte => (s.byteAt addr.toNat).setWidth 32
      | .word => wordOfBytes (s.byteAt addr.toNat) (s.byteAt (addr.toNat + 1)) (s.byteAt (addr.toNat + 2))
          (s.byteAt (addr.toNat + 3))) := by
  cases n <;> simp only [memRead, h, if_true] <;> rfl

theorem memRead_eq_none {s : State} {addr : Int} {n : Width} :
    memRead s addr n = none ↔ inBounds s.ramSize addr n = false := by
  cases h : inBounds s.ramSize addr n <;> simp [memRead, h]

theorem memWrite_of_inBounds {s : State} {addr : Int} {n : Width} (v : Word) (h : inBounds s.ramSize addr n = true) :
    memWrite s addr n v = some (s.setRam (match n with
      | .byte => s.ram.set addr.toNat (v.extractLsb' 0 8)
      | .word => s.ram.setWord addr.toNat v)) := by
  cases n <;> simp [memWrite, h]

theorem memWrite_eq_none {s : State} {addr : Int} {n : Width} {v : Word} :
    memWrite s addr n v = none ↔ inBounds s.ramSize addr n = false := by
  cases h : inBounds s.ramSize addr n <;> simp [memWrite, h]

/-- A write that happens: the address was in bounds, only RAM changed, and RAM changed only there. -/
theorem memWrite_eq_some {s t : State} {addr : Int} {n : Width} {v : Word} (h : memWrite s addr n v = some t) :
    inBounds s.ramSize addr n = true ∧ t = s.setRam t.ram ∧
    (∀ a : Nat, ((a : Int) < addr ∨ addr + n.bytes ≤ a) → t.byteAt a = s.byteAt a) ∧
    (s.ram.wf → t.ram.wf ∧ ∀ k, k < n.bytes → t.byteAt (addr.toNat + k) = v.extractLsb' (8 * k) 8) ∧
    ((∀ x ∈ s.ram, x.1 < s.ramSize) → ∀ x ∈ t.ram, x.1 < t.ramSize) := by
  cases hb : inBounds s.ramSize addr n
  · rw [memWrite_eq_none.mpr hb] at h; cases h
  · obtain ⟨h0, h1⟩ := inBounds_iff.mp hb
    rw [memWrite_of_inBounds v hb, Option.some.injEq] at h
    subst h
    cases n
    · simp only [Width.bytes] at h1
      refine ⟨rfl, rfl, fun a ha => ?_, fun hw => ⟨Memory.set_wf hw _ _, fun k hk => ?_⟩, fun hl =>
        Memory.set_bounded hl (by omega) _⟩
      · simp only [Width.bytes] at ha
        exact Memory.get_set_ne _ _ (by omega)
      · simp only [Width.bytes] at hk
        obtain rfl : k = 0 := by omega
        simp [Memory.get_set hw]
    · simp only [Width.bytes] at h1
      refine ⟨rfl, rfl, fun a ha => ?_, fun hw => ⟨Memory.setWord_wf hw _ _, fun k hk => ?_⟩, fun hl =>
        Memory.setWord_bounded hl (by omega) _⟩
      · simp only [Width.bytes] at ha
        exact Memory.get_setWord_ne _ _ (by omega)
      · simp only [Width.bytes] at hk
        obtain rfl | rfl | rfl | rfl : k = 0 ∨ k = 1 ∨ k = 2 ∨ k = 3 := by omega
        all_goals simp [Memory.get_setWord hw]

/-! ## The condition guard (R314) -/

theorem guarded_pass {c : Cond} {s : State} (h : condPass c s.flags = true) (t : State) : guarded c t s = .next t := by
  simp [guarded, h]

theorem guarded_fail {c : Cond} {s : State} (h : condPass c s.flags = false) (t : State) : guarded c t s = .next s := by
  simp [guarded, h]

/-- All a guarded instruction can do. -/
theorem guarded_cases {c : Cond} {r s t : State} (h : guarded c r s = .next t) :
    (condPass c s.flags = true ∧ t = r) ∨ (condPass c s.flags = false ∧ t = s) := by
  cases hc : condPass c s.flags
  · rw [guarded_fail hc] at h; cases h; exact .inr ⟨rfl, rfl⟩
  · rw [guarded_pass hc] at h; cases h; exact .inl ⟨rfl, rfl⟩

/-! ## Where a data-processing result lands (R170 to R173) -/

@[simp] theorem updatesFlags_eq_true {sf : Bool} {rd : Reg} : updatesFlags sf rd = true ↔ sf = true ∧ rd ≠ 15 := by
  simp [updatesFlags]

@[simp] theorem reg_setLogicFlags (sf : Bool) (rd : Reg) (sc : Bool) (res : Word) (s : State) (q : Reg) :
    (setLogicFlags sf rd sc res s).reg q = s.reg q := rfl
@[simp] theorem ram_setLogicFlags (sf : Bool) (rd : Reg) (sc : Bool) (res : Word) (s : State) :
    (setLogicFlags sf rd sc res s).ram = s.ram := rfl
@[simp] theorem ramSize_setLogicFlags (sf : Bool) (rd : Reg) (sc : Bool) (res : Word) (s : State) :
    (setLogicFlags sf rd sc res s).ramSize = s.ramSize := rfl
@[simp] theorem fault_setLogicFlags (sf : Bool) (rd : Reg) (sc : Bool) (res : Word) (s : State) :
    (setLogicFlags sf rd sc res s).fault = s.fault := rfl
@[simp] theorem flags_setLogicFlags (sf : Bool) (rd : Reg) (sc : Bool) (res : Word) (s : State) :
    (setLogicFlags sf rd sc res s).flags = if updatesFlags sf rd then logicFlags sc res s.flags else s.flags := rfl

@[simp] theorem reg_setArithFlags (sf : Bool) (rd : Reg) (o : AdderOut) (s : State) (q : Reg) :
    (setArithFlags sf rd o s).reg q = s.reg q := rfl
@[simp] theorem ram_setArithFlags (sf : Bool) (rd : Reg) (o : AdderOut) (s : State) :
    (setArithFlags sf rd o s).ram = s.ram := rfl
@[simp] theorem ramSize_setArithFlags (sf : Bool) (rd : Reg) (o : AdderOut) (s : State) :
    (setArithFlags sf rd o s).ramSize = s.ramSize := rfl
@[simp] theorem fault_setArithFlags (sf : Bool) (rd : Reg) (o : AdderOut) (s : State) :
    (setArithFlags sf rd o s).fault = s.fault := rfl
@[simp] theorem flags_setArithFlags (sf : Bool) (rd : Reg) (o : AdderOut) (s : State) :
    (setArithFlags sf rd o s).flags = if updatesFlags sf rd then arithFlags o else s.flags := rfl

@[simp] theorem reg_logicResult (sf : Bool) (rd : Reg) (sc : Bool) (res : Word) (s : State) (q : Reg) :
    (logicResult sf rd sc res s).reg q = if rd = q then res else s.reg q := by simp [logicResult]
@[simp] theorem ram_logicResult (sf : Bool) (rd : Reg) (sc : Bool) (res : Word) (s : State) :
    (logicResult sf rd sc res s).ram = s.ram := rfl
@[simp] theorem ramSize_logicResult (sf : Bool) (rd : Reg) (sc : Bool) (res : Word) (s : State) :
    (logicResult sf rd sc res s).ramSize = s.ramSize := rfl
@[simp] theorem fault_logicResult (sf : Bool) (rd : Reg) (sc : Bool) (res : Word) (s : State) :
    (logicResult sf rd sc res s).fault = s.fault := rfl
@[simp] theorem flags_logicResult (sf : Bool) (rd : Reg) (sc : Bool) (res : Word) (s : State) :
    (logicResult sf rd sc res s).flags = if updatesFlags sf rd then logicFlags sc res s.flags else s.flags := rfl

@[simp] theorem reg_arithResult (sf : Bool) (rd : Reg) (o : AdderOut) (s : State) (q : Reg) :
    (arithResult sf rd o s).reg q = if rd = q then o.res else s.reg q := by simp [arithResult]
@[simp] theorem ram_arithResult (sf : Bool) (rd : Reg) (o : AdderOut) (s : State) :
    (arithResult sf rd o s).ram = s.ram := rfl
@[simp] theorem ramSize_arithResult (sf : Bool) (rd : Reg) (o : AdderOut) (s : State) :
    (arithResult sf rd o s).ramSize = s.ramSize := rfl
@[simp] theorem fault_arithResult (sf : Bool) (rd : Reg) (o : AdderOut) (s : State) :
    (arithResult sf rd o s).fault = s.fault := rfl
@[simp] theorem flags_arithResult (sf : Bool) (rd : Reg) (o : AdderOut) (s : State) :
    (arithResult sf rd o s).flags = if updatesFlags sf rd then arithFlags o else s.flags := rfl

/-! ## The adder as arithmetic (R173, R193) -/

/-- The widened sum does not wrap: its value is the exact sum. -/
theorem toNat_wideSum (x y : Word) (cin : Bool) : (wideSum x y cin).toNat = x.toNat + y.toNat + cin.toNat := by
  have hx := x.isLt
  have hy := y.isLt
  have hc : cin.toNat ≤ 1 := Bool.toNat_le cin
  simp only [wideSum, BitVec.toNat_add, BitVec.toNat_setWidth, BitVec.toNat_ofBool]
  omega

theorem addWithCarry_res (x y : Word) (cin : Bool) :
    (addWithCarry x y cin).res = BitVec.ofNat 32 (x.toNat + y.toNat + cin.toNat) := by
  apply BitVec.eq_of_toNat_eq
  simp [addWithCarry, BitVec.extractLsb'_toNat, toNat_wideSum]

theorem addWithCarry_cout (x y : Word) (cin : Bool) :
    (addWithCarry x y cin).cout = (x.toNat + y.toNat + cin.toNat).testBit 32 := by
  simp [addWithCarry, BitVec.getLsbD, toNat_wideSum]

theorem addWithCarry_ovf (x y : Word) (cin : Bool) :
    (addWithCarry x y cin).ovf = ((x.msb == y.msb) && ((addWithCarry x y cin).res.msb != x.msb)) := rfl

/-! ## The transfer unit (R220 to R231) -/

theorem writeBackBase_of_true {ix : Indexing} (h : writesBack ix = true) (rn : Reg) (base off : Word) (s : State) :
    writeBackBase ix rn base off s = s.setReg rn (writeBackValue ix base off) := by simp [writeBackBase, h]

theorem writeBackBase_of_false {ix : Indexing} (h : writesBack ix = false) (rn : Reg) (base off : Word) (s : State) :
    writeBackBase ix rn base off s = s := by simp [writeBackBase, h]

@[simp] theorem reg_writeBackBase (ix : Indexing) (rn : Reg) (base off : Word) (s : State) (q : Reg) :
    (writeBackBase ix rn base off s).reg q =
      if writesBack ix = true ∧ rn = q then writeBackValue ix base off else s.reg q := by
  cases h : writesBack ix <;> simp [writeBackBase, h]
@[simp] theorem flags_writeBackBase (ix : Indexing) (rn : Reg) (base off : Word) (s : State) :
    (writeBackBase ix rn base off s).flags = s.flags := by cases h : writesBack ix <;> simp [writeBackBase, h]
@[simp] theorem ram_writeBackBase (ix : Indexing) (rn : Reg) (base off : Word) (s : State) :
    (writeBackBase ix rn base off s).ram = s.ram := by cases h : writesBack ix <;> simp [writeBackBase, h]
@[simp] theorem ramSize_writeBackBase (ix : Indexing) (rn : Reg) (base off : Word) (s : State) :
    (writeBackBase ix rn base off s).ramSize = s.ramSize := by cases h : writesBack ix <;> simp [writeBackBase, h]
@[simp] theorem fault_writeBackBase (ix : Indexing) (rn : Reg) (base off : Word) (s : State) :
    (writeBackBase ix rn base off s).fault = s.fault := by cases h : writesBack ix <;> simp [writeBackBase, h]

/-- All a load can do: the value lands and the base is written back, or the memory fault is raised. -/
theorem loadOp_cases (i : Instr) (n : Width) (ix : Indexing) (rn rd : Reg) (off : Word) (s : State) :
    (∃ v, memRead s (transferAddress ix (s.reg rn) off) n = some v ∧
      loadOp i n ix rn rd off s = writeBackBase ix rn (s.reg rn) off (s.setReg rd v)) ∨
    (inBounds s.ramSize (transferAddress ix (s.reg rn) off) n = false ∧
      loadOp i n ix rn rd off s = raise (transferFaultRecord i (transferAddress ix (s.reg rn) off) s) s) := by
  unfold loadOp
  split
  next h => exact .inr ⟨memRead_eq_none.mp h, rfl⟩
  next v h => exact .inl ⟨v, h, rfl⟩

/-- All a store can do: the bytes are written and the base is written back, or the memory fault is raised. -/
theorem storeOp_cases (i : Instr) (n : Width) (ix : Indexing) (rn rd : Reg) (off : Word) (s : State) :
    (∃ t, memWrite s (transferAddress ix (s.reg rn) off) n (s.reg rd) = some t ∧
      storeOp i n ix rn rd off s = writeBackBase ix rn (s.reg rn) off t) ∨
    (inBounds s.ramSize (transferAddress ix (s.reg rn) off) n = false ∧
      storeOp i n ix rn rd off s = raise (transferFaultRecord i (transferAddress ix (s.reg rn) off) s) s) := by
  unfold storeOp
  split
  next h => exact .inr ⟨memWrite_eq_none.mp h, rfl⟩
  next t h => exact .inl ⟨t, h, rfl⟩

/-! ## The branch and the long-multiply units (R250, R260) -/

@[simp] theorem reg_branchTo (imm24 : BitVec 24) (s : State) (q : Reg) :
    (branchTo imm24 s).reg q = if 15 = q then s.pc + branchOffset imm24 + 4 else s.reg q := by
  simp [branchTo, State.setPc]
@[simp] theorem flags_branchTo (imm24 : BitVec 24) (s : State) : (branchTo imm24 s).flags = s.flags := rfl
@[simp] theorem ram_branchTo (imm24 : BitVec 24) (s : State) : (branchTo imm24 s).ram = s.ram := rfl
@[simp] theorem ramSize_branchTo (imm24 : BitVec 24) (s : State) : (branchTo imm24 s).ramSize = s.ramSize := rfl
@[simp] theorem fault_branchTo (imm24 : BitVec 24) (s : State) : (branchTo imm24 s).fault = s.fault := rfl

@[simp] theorem reg_link (s : State) (q : Reg) : (link s).reg q = if 14 = q then s.pc else s.reg q := by simp [link]
@[simp] theorem pc_link (s : State) : (link s).pc = s.pc := by simp [State.pc]
@[simp] theorem flags_link (s : State) : (link s).flags = s.flags := rfl
@[simp] theorem ram_link (s : State) : (link s).ram = s.ram := rfl
@[simp] theorem ramSize_link (s : State) : (link s).ramSize = s.ramSize := rfl
@[simp] theorem fault_link (s : State) : (link s).fault = s.fault := rfl

@[simp] theorem reg_longResult (sf : Bool) (rdHi rdLo : Reg) (res : DWord) (s : State) (q : Reg) :
    (longResult sf rdHi rdLo res s).reg q =
      if rdHi = q then res.extractLsb' 32 32 else if rdLo = q then res.extractLsb' 0 32 else s.reg q := by
  simp [longResult]
@[simp] theorem flags_longResult (sf : Bool) (rdHi rdLo : Reg) (res : DWord) (s : State) :
    (longResult sf rdHi rdLo res s).flags = if sf then longFlags res s.flags else s.flags := rfl
@[simp] theorem ram_longResult (sf : Bool) (rdHi rdLo : Reg) (res : DWord) (s : State) :
    (longResult sf rdHi rdLo res s).ram = s.ram := rfl
@[simp] theorem ramSize_longResult (sf : Bool) (rdHi rdLo : Reg) (res : DWord) (s : State) :
    (longResult sf rdHi rdLo res s).ramSize = s.ramSize := rfl
@[simp] theorem fault_longResult (sf : Bool) (rdHi rdLo : Reg) (res : DWord) (s : State) :
    (longResult sf rdHi rdLo res s).fault = s.fault := rfl

/-! ## The decode gap (R280) -/

@[simp] theorem reg_decodeGap (cat : Category) (i : Instr) (s : State) (q : Reg) : (decodeGap cat i s).reg q = s.reg q := rfl
@[simp] theorem flags_decodeGap (cat : Category) (i : Instr) (s : State) : (decodeGap cat i s).flags = s.flags := rfl
@[simp] theorem ram_decodeGap (cat : Category) (i : Instr) (s : State) : (decodeGap cat i s).ram = s.ram := rfl
@[simp] theorem ramSize_decodeGap (cat : Category) (i : Instr) (s : State) : (decodeGap cat i s).ramSize = s.ramSize := rfl
@[simp] theorem fault_decodeGap (cat : Category) (i : Instr) (s : State) :
    (decodeGap cat i s).fault = some (decodeGapRecord cat i s) := rfl

/-! ## Every memory operation keeps the canonical form -/

theorem memWrite_keeps_wf {s t : State} {addr : Int} {n : Width} {v : Word} (hw : s.ram.wf)
    (h : memWrite s addr n v = some t) : t.ram.wf := ((memWrite_eq_some h).2.2.2.1 hw).1

theorem placeFetchWord_keeps_wf {s : State} (hw : s.ram.wf) (w : Word) : (placeFetchWord s w).ram.wf :=
  Memory.setWord_wf hw _ _

theorem resetArgs_valid_iff {a : ResetArgs} :
    a.valid = true ↔ 1 ≤ a.ramSize ∧ a.ramSize ≤ 2 ^ 32 ∧ a.image.length ≤ a.ramSize := by
  simp [ResetArgs.valid, and_assoc]

theorem ofReset_wf (a : ResetArgs) : (State.ofReset a).ram.wf := Memory.ofBytes_wf 0 a.image

theorem reset_wf : State.reset.ram.wf := ofReset_wf _

/-! ## The fetch (R312) -/

theorem fetch_of_inBounds {s : State} (h : s.pc.toNat + 4 ≤ s.ramSize) :
    fetch s = some (wordOfBytes (s.byteAt s.pc.toNat) (s.byteAt (s.pc.toNat + 1)) (s.byteAt (s.pc.toNat + 2))
      (s.byteAt (s.pc.toNat + 3))) := by
  have hb : inBounds s.ramSize (s.pc.toNat : Int) .word = true := inBounds_iff.mpr ⟨by omega, by simp [Width.bytes]; omega⟩
  simpa [fetch] using memRead_of_inBounds hb

theorem fetch_eq_none {s : State} : fetch s = none ↔ s.ramSize < s.pc.toNat + 4 := by
  simp only [fetch, memRead_eq_none, Bool.eq_false_iff, ne_eq, inBounds_iff, Width.bytes]
  omega

/-- A placed word is the next one fetched (log 3). -/
theorem fetch_placeFetchWord {s : State} (hw : s.ram.wf) (w : Word) : fetch (placeFetchWord s w) = some w := by
  have hp : (placeFetchWord s w).pc = s.pc := rfl
  have hs : (placeFetchWord s w).pc.toNat + 4 ≤ (placeFetchWord s w).ramSize := by
    rw [hp]; exact Nat.le_max_right _ _
  rw [fetch_of_inBounds hs]
  exact congrArg some (Memory.getWord_setWord hw s.pc.toNat w)

theorem halted_iff {s : State} : s.halted = true ↔ s.fault ≠ none ∨ s.ramSize ≤ s.pc.toNat := by
  simp [State.halted, Option.isSome_iff_ne_none]

theorem status_eq_halted {s : State} : s.status = .halted ↔ s.halted = true := by
  cases h : s.halted <;> simp [State.status, h]

end Sys2Proof.Machine
end

