-- ==== Sys2Proof/Laws/PerInstr.lean ====
section
/-! SUPPORT. The statement made for every instruction, constructor by constructor: the condition stands in bits 31 to 28 of its
word (`spec/30_encoding.md` R82). -/

namespace Sys2Proof.Laws.CondField

/-- The condition field of the instruction's word is the code of its condition (R82). -/
def Statement (i : Instr) : Prop := field (encode i) 28 4 = i.cond.bits

/-! ## The formats -/

theorem rotImm (o : RotImm) : field o.word 28 4 = 0 := by simp (disch := omega) [RotImm.word, field_place_other]

theorem shiftImm (o : ShiftImm) : field o.word 28 4 = 0 := by simp (disch := omega) [ShiftImm.word, field_place_other]

theorem shiftReg (o : ShiftReg) : field o.word 28 4 = 0 := by
  simp (disch := omega) [ShiftReg.word, place1, field_place_other, field_ofNat]

theorem dp (im : Bool) (op : DpOp) (c : Cond) (sf : Bool) (rn rd : Reg) {o : Word} (h : field o 28 4 = 0) :
    field (encodeDp im op c sf rn rd o) 28 4 = c.bits := by
  simp (disch := omega) [encodeDp, place1, field_place_other, field_place_same, h]

theorem transfer {fixed : Word} (hf : field fixed 28 4 = 0) (c : Cond) (ix : Indexing) (rn rd : Reg) {o : Word}
    (h : field o 28 4 = 0) : field (encodeTransfer fixed c ix rn rd o) 28 4 = c.bits := by
  simp (disch := omega) [encodeTransfer, Indexing.word, place1, field_place_other, field_place_same, h, hf]

theorem multiply {fixed : Word} (hf : field fixed 28 4 = 0) (c : Cond) (sf : Bool) (r16 r12 r8 r0 : Reg) :
    field (encodeMultiply fixed c sf r16 r12 r8 r0) 28 4 = c.bits := by
  simp (disch := omega) [encodeMultiply, place1, field_place_other, field_place_same, hf]

theorem swap {fixed : Word} (hf : field fixed 28 4 = 0) (c : Cond) (rn rd rm : Reg) :
    field (encodeSwap fixed c rn rd rm) 28 4 = c.bits := by
  simp (disch := omega) [encodeSwap, field_place_other, field_place_same, hf]

theorem block {fixed : Word} (hf : field fixed 28 4 = 0) (c : Cond) (ix : Indexing) (psr : Bool) (rn : Reg)
    (regList : BitVec 16) : field (encodeBlock fixed c ix psr rn regList) 28 4 = c.bits := by
  simp (disch := omega) [encodeBlock, Indexing.word, place1, field_place_other, field_place_same, hf]

theorem coprocTransfer {fixed : Word} (hf : field fixed 28 4 = 0) (c : Cond) (ix : Indexing) (nbit : Bool) (rn : Reg)
    (crd cpNum : BitVec 4) (offset8 : BitVec 8) :
    field (encodeCoprocTransfer fixed c ix nbit rn crd cpNum offset8) 28 4 = c.bits := by
  simp (disch := omega) [encodeCoprocTransfer, Indexing.word, place1, field_place_other, field_place_same, hf]

theorem coprocRegister {fixed : Word} (hf : field fixed 28 4 = 0) (c : Cond) (opc : BitVec 3) (crn : BitVec 4) (rd : Reg)
    (cpNum : BitVec 4) (cp : BitVec 3) (crm : BitVec 4) :
    field (encodeCoprocRegister fixed c opc crn rd cpNum cp crm) 28 4 = c.bits := by
  simp (disch := omega) [encodeCoprocRegister, field_place_other, field_place_same, hf]

theorem offset8 (hi lo : BitVec 4) : field (place 8 hi ||| place 0 lo) 28 4 = 0 := by
  simp (disch := omega) [field_place_other]

theorem offset12 (imm12 : BitVec 12) : field (place 0 imm12) 28 4 = 0 := field_place_other _ (by omega)

/-! ## The instructions -/

theorem bx (c : Cond) (rn : Reg) : Statement (.bx c rn) := by
  simp (disch := omega) [Statement, encode, Instr.cond, field_place_other, field_place_same, field_ofNat]

theorem mrs (c : Cond) (ps : Bool) (rd : Reg) : Statement (.mrs c ps rd) := by
  simp (disch := omega) [Statement, encode, Instr.cond, place1, field_place_other, field_place_same, field_ofNat]

theorem msr (c : Cond) (pd : Bool) (rm : Reg) : Statement (.msr c pd rm) := by
  simp (disch := omega) [Statement, encode, Instr.cond, place1, field_place_other, field_place_same, field_ofNat]

theorem swp (c : Cond) (rn rd rm : Reg) : Statement (.swp c rn rd rm) := swap rfl ..

theorem swpb (c : Cond) (rn rd rm : Reg) : Statement (.swpb c rn rd rm) := swap rfl ..

theorem msrFlags (c : Cond) (im pd : Bool) (operand : BitVec 12) : Statement (.msrFlags c im pd operand) := by
  simp (disch := omega) [Statement, encode, Instr.cond, place1, field_place_other, field_place_same, field_ofNat]

theorem strhReg (c : Cond) (ix : Indexing) (rn rd rm : Reg) : Statement (.strhReg c ix rn rd rm) :=
  transfer rfl _ _ _ _ (field_place_other _ (by omega))

theorem ldrhReg (c : Cond) (ix : Indexing) (rn rd rm : Reg) : Statement (.ldrhReg c ix rn rd rm) :=
  transfer rfl _ _ _ _ (field_place_other _ (by omega))

theorem ldrsbReg (c : Cond) (ix : Indexing) (rn rd rm : Reg) : Statement (.ldrsbReg c ix rn rd rm) :=
  transfer rfl _ _ _ _ (field_place_other _ (by omega))

theorem ldrshReg (c : Cond) (ix : Indexing) (rn rd rm : Reg) : Statement (.ldrshReg c ix rn rd rm) :=
  transfer rfl _ _ _ _ (field_place_other _ (by omega))

theorem hwReservedRegSh2 (c : Cond) (ix : Indexing) (rn rd rm : Reg) : Statement (.hwReservedRegSh2 c ix rn rd rm) :=
  transfer rfl _ _ _ _ (field_place_other _ (by omega))

theorem hwReservedRegSh3 (c : Cond) (ix : Indexing) (rn rd rm : Reg) : Statement (.hwReservedRegSh3 c ix rn rd rm) :=
  transfer rfl _ _ _ _ (field_place_other _ (by omega))

theorem mul (c : Cond) (sf : Bool) (rd rn rs rm : Reg) : Statement (.mul c sf rd rn rs rm) := multiply rfl ..

theorem mla (c : Cond) (sf : Bool) (rd rn rs rm : Reg) : Statement (.mla c sf rd rn rs rm) := multiply rfl ..

theorem umull (c : Cond) (sf : Bool) (rdHi rdLo rs rm : Reg) : Statement (.umull c sf rdHi rdLo rs rm) := multiply rfl ..

theorem umlal (c : Cond) (sf : Bool) (rdHi rdLo rs rm : Reg) : Statement (.umlal c sf rdHi rdLo rs rm) := multiply rfl ..

theorem smull (c : Cond) (sf : Bool) (rdHi rdLo rs rm : Reg) : Statement (.smull c sf rdHi rdLo rs rm) := multiply rfl ..

theorem smlal (c : Cond) (sf : Bool) (rdHi rdLo rs rm : Reg) : Statement (.smlal c sf rdHi rdLo rs rm) := multiply rfl ..

theorem strhImm (c : Cond) (ix : Indexing) (rn rd : Reg) (offHi offLo : BitVec 4) : Statement (.strhImm c ix rn rd offHi offLo) :=
  transfer rfl _ _ _ _ (offset8 _ _)

theorem ldrhImm (c : Cond) (ix : Indexing) (rn rd : Reg) (offHi offLo : BitVec 4) : Statement (.ldrhImm c ix rn rd offHi offLo) :=
  transfer rfl _ _ _ _ (offset8 _ _)

theorem ldrsbImm (c : Cond) (ix : Indexing) (rn rd : Reg) (offHi offLo : BitVec 4) : Statement (.ldrsbImm c ix rn rd offHi offLo) :=
  transfer rfl _ _ _ _ (offset8 _ _)

theorem ldrshImm (c : Cond) (ix : Indexing) (rn rd : Reg) (offHi offLo : BitVec 4) : Statement (.ldrshImm c ix rn rd offHi offLo) :=
  transfer rfl _ _ _ _ (offset8 _ _)

theorem hwReservedImmSh2 (c : Cond) (ix : Indexing) (rn rd : Reg) (offHi offLo : BitVec 4) : Statement (.hwReservedImmSh2 c ix rn rd offHi offLo) :=
  transfer rfl _ _ _ _ (offset8 _ _)

theorem hwReservedImmSh3 (c : Cond) (ix : Indexing) (rn rd : Reg) (offHi offLo : BitVec 4) : Statement (.hwReservedImmSh3 c ix rn rd offHi offLo) :=
  transfer rfl _ _ _ _ (offset8 _ _)

theorem cdp (c : Cond) (opc crn crd cpNum : BitVec 4) (cp : BitVec 3) (crm : BitVec 4) : Statement (.cdp c opc crn crd cpNum cp crm) :=
  by
  simp (disch := omega) [Statement, encode, Instr.cond, field_place_other, field_place_same, field_ofNat]

theorem mrc (c : Cond) (opc : BitVec 3) (crn : BitVec 4) (rd : Reg) (cpNum : BitVec 4) (cp : BitVec 3) (crm : BitVec 4) : Statement (.mrc c opc crn rd cpNum cp crm) :=
  coprocRegister rfl ..

theorem mcr (c : Cond) (opc : BitVec 3) (crn : BitVec 4) (rd : Reg) (cpNum : BitVec 4) (cp : BitVec 3) (crm : BitVec 4) : Statement (.mcr c opc crn rd cpNum cp crm) :=
  coprocRegister rfl ..

theorem undefined (c : Cond) (xHi : BitVec 20) (xLo : BitVec 4) : Statement (.undefined c xHi xLo) := by
  simp (disch := omega) [Statement, encode, Instr.cond, field_place_other, field_place_same, field_ofNat]

theorem swi (c : Cond) (comment : BitVec 24) : Statement (.swi c comment) := by
  simp (disch := omega) [Statement, encode, Instr.cond, field_place_other, field_place_same, field_ofNat]

theorem ldm (c : Cond) (ix : Indexing) (psr : Bool) (rn : Reg) (regList : BitVec 16) : Statement (.ldm c ix psr rn regList) :=
  block rfl ..

theorem stm (c : Cond) (ix : Indexing) (psr : Bool) (rn : Reg) (regList : BitVec 16) : Statement (.stm c ix psr rn regList) :=
  block rfl ..

theorem b (c : Cond) (imm24 : BitVec 24) : Statement (.b c imm24) := by
  simp (disch := omega) [Statement, encode, Instr.cond, field_place_other, field_place_same, field_ofNat]

theorem bl (c : Cond) (imm24 : BitVec 24) : Statement (.bl c imm24) := by
  simp (disch := omega) [Statement, encode, Instr.cond, field_place_other, field_place_same, field_ofNat]

theorem ldc (c : Cond) (ix : Indexing) (nbit : Bool) (rn : Reg) (crd cpNum : BitVec 4) (offset8 : BitVec 8) : Statement (.ldc c ix nbit rn crd cpNum offset8) :=
  coprocTransfer rfl ..

theorem stc (c : Cond) (ix : Indexing) (nbit : Bool) (rn : Reg) (crd cpNum : BitVec 4) (offset8 : BitVec 8) : Statement (.stc c ix nbit rn crd cpNum offset8) :=
  coprocTransfer rfl ..

theorem ldrImm (c : Cond) (ix : Indexing) (rn rd : Reg) (imm12 : BitVec 12) : Statement (.ldrImm c ix rn rd imm12) :=
  transfer rfl _ _ _ _ (offset12 _)

theorem ldrReg (c : Cond) (ix : Indexing) (rn rd : Reg) (o : ShiftImm) : Statement (.ldrReg c ix rn rd o) :=
  transfer rfl _ _ _ _ (shiftImm o)

theorem strImm (c : Cond) (ix : Indexing) (rn rd : Reg) (imm12 : BitVec 12) : Statement (.strImm c ix rn rd imm12) :=
  transfer rfl _ _ _ _ (offset12 _)

theorem strReg (c : Cond) (ix : Indexing) (rn rd : Reg) (o : ShiftImm) : Statement (.strReg c ix rn rd o) :=
  transfer rfl _ _ _ _ (shiftImm o)

theorem ldrbImm (c : Cond) (ix : Indexing) (rn rd : Reg) (imm12 : BitVec 12) : Statement (.ldrbImm c ix rn rd imm12) :=
  transfer rfl _ _ _ _ (offset12 _)

theorem ldrbReg (c : Cond) (ix : Indexing) (rn rd : Reg) (o : ShiftImm) : Statement (.ldrbReg c ix rn rd o) :=
  transfer rfl _ _ _ _ (shiftImm o)

theorem strbImm (c : Cond) (ix : Indexing) (rn rd : Reg) (imm12 : BitVec 12) : Statement (.strbImm c ix rn rd imm12) :=
  transfer rfl _ _ _ _ (offset12 _)

theorem strbReg (c : Cond) (ix : Indexing) (rn rd : Reg) (o : ShiftImm) : Statement (.strbReg c ix rn rd o) :=
  transfer rfl _ _ _ _ (shiftImm o)

theorem andImm (c : Cond) (sf : Bool) (rn rd : Reg) (o : RotImm) : Statement (.andImm c sf rn rd o) :=
  dp _ _ _ _ _ _ (rotImm o)

theorem andShiftImm (c : Cond) (sf : Bool) (rn rd : Reg) (o : ShiftImm) : Statement (.andShiftImm c sf rn rd o) :=
  dp _ _ _ _ _ _ (shiftImm o)

theorem andShiftReg (c : Cond) (sf : Bool) (rn rd : Reg) (o : ShiftReg) : Statement (.andShiftReg c sf rn rd o) :=
  dp _ _ _ _ _ _ (shiftReg o)

theorem eorImm (c : Cond) (sf : Bool) (rn rd : Reg) (o : RotImm) : Statement (.eorImm c sf rn rd o) :=
  dp _ _ _ _ _ _ (rotImm o)

theorem eorShiftImm (c : Cond) (sf : Bool) (rn rd : Reg) (o : ShiftImm) : Statement (.eorShiftImm c sf rn rd o) :=
  dp _ _ _ _ _ _ (shiftImm o)

theorem eorShiftReg (c : Cond) (sf : Bool) (rn rd : Reg) (o : ShiftReg) : Statement (.eorShiftReg c sf rn rd o) :=
  dp _ _ _ _ _ _ (shiftReg o)

theorem subImm (c : Cond) (sf : Bool) (rn rd : Reg) (o : RotImm) : Statement (.subImm c sf rn rd o) :=
  dp _ _ _ _ _ _ (rotImm o)

theorem subShiftImm (c : Cond) (sf : Bool) (rn rd : Reg) (o : ShiftImm) : Statement (.subShiftImm c sf rn rd o) :=
  dp _ _ _ _ _ _ (shiftImm o)

theorem subShiftReg (c : Cond) (sf : Bool) (rn rd : Reg) (o : ShiftReg) : Statement (.subShiftReg c sf rn rd o) :=
  dp _ _ _ _ _ _ (shiftReg o)

theorem rsbImm (c : Cond) (sf : Bool) (rn rd : Reg) (o : RotImm) : Statement (.rsbImm c sf rn rd o) :=
  dp _ _ _ _ _ _ (rotImm o)

theorem rsbShiftImm (c : Cond) (sf : Bool) (rn rd : Reg) (o : ShiftImm) : Statement (.rsbShiftImm c sf rn rd o) :=
  dp _ _ _ _ _ _ (shiftImm o)

theorem rsbShiftReg (c : Cond) (sf : Bool) (rn rd : Reg) (o : ShiftReg) : Statement (.rsbShiftReg c sf rn rd o) :=
  dp _ _ _ _ _ _ (shiftReg o)

theorem addImm (c : Cond) (sf : Bool) (rn rd : Reg) (o : RotImm) : Statement (.addImm c sf rn rd o) :=
  dp _ _ _ _ _ _ (rotImm o)

theorem addShiftImm (c : Cond) (sf : Bool) (rn rd : Reg) (o : ShiftImm) : Statement (.addShiftImm c sf rn rd o) :=
  dp _ _ _ _ _ _ (shiftImm o)

theorem addShiftReg (c : Cond) (sf : Bool) (rn rd : Reg) (o : ShiftReg) : Statement (.addShiftReg c sf rn rd o) :=
  dp _ _ _ _ _ _ (shiftReg o)

theorem adcImm (c : Cond) (sf : Bool) (rn rd : Reg) (o : RotImm) : Statement (.adcImm c sf rn rd o) :=
  dp _ _ _ _ _ _ (rotImm o)

theorem adcShiftImm (c : Cond) (sf : Bool) (rn rd : Reg) (o : ShiftImm) : Statement (.adcShiftImm c sf rn rd o) :=
  dp _ _ _ _ _ _ (shiftImm o)

theorem adcShiftReg (c : Cond) (sf : Bool) (rn rd : Reg) (o : ShiftReg) : Statement (.adcShiftReg c sf rn rd o) :=
  dp _ _ _ _ _ _ (shiftReg o)

theorem sbcImm (c : Cond) (sf : Bool) (rn rd : Reg) (o : RotImm) : Statement (.sbcImm c sf rn rd o) :=
  dp _ _ _ _ _ _ (rotImm o)

theorem sbcShiftImm (c : Cond) (sf : Bool) (rn rd : Reg) (o : ShiftImm) : Statement (.sbcShiftImm c sf rn rd o) :=
  dp _ _ _ _ _ _ (shiftImm o)

theorem sbcShiftReg (c : Cond) (sf : Bool) (rn rd : Reg) (o : ShiftReg) : Statement (.sbcShiftReg c sf rn rd o) :=
  dp _ _ _ _ _ _ (shiftReg o)

theorem rscImm (c : Cond) (sf : Bool) (rn rd : Reg) (o : RotImm) : Statement (.rscImm c sf rn rd o) :=
  dp _ _ _ _ _ _ (rotImm o)

theorem rscShiftImm (c : Cond) (sf : Bool) (rn rd : Reg) (o : ShiftImm) : Statement (.rscShiftImm c sf rn rd o) :=
  dp _ _ _ _ _ _ (shiftImm o)

theorem rscShiftReg (c : Cond) (sf : Bool) (rn rd : Reg) (o : ShiftReg) : Statement (.rscShiftReg c sf rn rd o) :=
  dp _ _ _ _ _ _ (shiftReg o)

theorem tstImm (c : Cond) (rn rd : Reg) (o : RotImm) : Statement (.tstImm c rn rd o) := dp _ _ _ _ _ _ (rotImm o)

theorem tstS0Imm (c : Cond) (rn rd : Reg) (o : RotImm) : Statement (.tstS0Imm c rn rd o) := dp _ _ _ _ _ _ (rotImm o)

theorem tstShiftImm (c : Cond) (rn rd : Reg) (o : ShiftImm) : Statement (.tstShiftImm c rn rd o) :=
  dp _ _ _ _ _ _ (shiftImm o)

theorem tstS0ShiftImm (c : Cond) (rn rd : Reg) (o : ShiftImm) : Statement (.tstS0ShiftImm c rn rd o) :=
  dp _ _ _ _ _ _ (shiftImm o)

theorem tstShiftReg (c : Cond) (rn rd : Reg) (o : ShiftReg) : Statement (.tstShiftReg c rn rd o) :=
  dp _ _ _ _ _ _ (shiftReg o)

theorem tstS0ShiftReg (c : Cond) (rn rd : Reg) (o : ShiftReg) : Statement (.tstS0ShiftReg c rn rd o) :=
  dp _ _ _ _ _ _ (shiftReg o)

theorem teqImm (c : Cond) (rn rd : Reg) (o : RotImm) : Statement (.teqImm c rn rd o) := dp _ _ _ _ _ _ (rotImm o)

theorem teqS0Imm (c : Cond) (rn rd : Reg) (o : RotImm) : Statement (.teqS0Imm c rn rd o) := dp _ _ _ _ _ _ (rotImm o)

theorem teqShiftImm (c : Cond) (rn rd : Reg) (o : ShiftImm) : Statement (.teqShiftImm c rn rd o) :=
  dp _ _ _ _ _ _ (shiftImm o)

theorem teqS0ShiftImm (c : Cond) (rn rd : Reg) (o : ShiftImm) : Statement (.teqS0ShiftImm c rn rd o) :=
  dp _ _ _ _ _ _ (shiftImm o)

theorem teqShiftReg (c : Cond) (rn rd : Reg) (o : ShiftReg) : Statement (.teqShiftReg c rn rd o) :=
  dp _ _ _ _ _ _ (shiftReg o)

theorem teqS0ShiftReg (c : Cond) (rn rd : Reg) (o : ShiftReg) : Statement (.teqS0ShiftReg c rn rd o) :=
  dp _ _ _ _ _ _ (shiftReg o)

theorem cmpImm (c : Cond) (rn rd : Reg) (o : RotImm) : Statement (.cmpImm c rn rd o) := dp _ _ _ _ _ _ (rotImm o)

theorem cmpS0Imm (c : Cond) (rn rd : Reg) (o : RotImm) : Statement (.cmpS0Imm c rn rd o) := dp _ _ _ _ _ _ (rotImm o)

theorem cmpShiftImm (c : Cond) (rn rd : Reg) (o : ShiftImm) : Statement (.cmpShiftImm c rn rd o) :=
  dp _ _ _ _ _ _ (shiftImm o)

theorem cmpS0ShiftImm (c : Cond) (rn rd : Reg) (o : ShiftImm) : Statement (.cmpS0ShiftImm c rn rd o) :=
  dp _ _ _ _ _ _ (shiftImm o)

theorem cmpShiftReg (c : Cond) (rn rd : Reg) (o : ShiftReg) : Statement (.cmpShiftReg c rn rd o) :=
  dp _ _ _ _ _ _ (shiftReg o)

theorem cmpS0ShiftReg (c : Cond) (rn rd : Reg) (o : ShiftReg) : Statement (.cmpS0ShiftReg c rn rd o) :=
  dp _ _ _ _ _ _ (shiftReg o)

theorem cmnImm (c : Cond) (rn rd : Reg) (o : RotImm) : Statement (.cmnImm c rn rd o) := dp _ _ _ _ _ _ (rotImm o)

theorem cmnS0Imm (c : Cond) (rn rd : Reg) (o : RotImm) : Statement (.cmnS0Imm c rn rd o) := dp _ _ _ _ _ _ (rotImm o)

theorem cmnShiftImm (c : Cond) (rn rd : Reg) (o : ShiftImm) : Statement (.cmnShiftImm c rn rd o) :=
  dp _ _ _ _ _ _ (shiftImm o)

theorem cmnS0ShiftImm (c : Cond) (rn rd : Reg) (o : ShiftImm) : Statement (.cmnS0ShiftImm c rn rd o) :=
  dp _ _ _ _ _ _ (shiftImm o)

theorem cmnShiftReg (c : Cond) (rn rd : Reg) (o : ShiftReg) : Statement (.cmnShiftReg c rn rd o) :=
  dp _ _ _ _ _ _ (shiftReg o)

theorem cmnS0ShiftReg (c : Cond) (rn rd : Reg) (o : ShiftReg) : Statement (.cmnS0ShiftReg c rn rd o) :=
  dp _ _ _ _ _ _ (shiftReg o)

theorem orrImm (c : Cond) (sf : Bool) (rn rd : Reg) (o : RotImm) : Statement (.orrImm c sf rn rd o) :=
  dp _ _ _ _ _ _ (rotImm o)

theorem orrShiftImm (c : Cond) (sf : Bool) (rn rd : Reg) (o : ShiftImm) : Statement (.orrShiftImm c sf rn rd o) :=
  dp _ _ _ _ _ _ (shiftImm o)

theorem orrShiftReg (c : Cond) (sf : Bool) (rn rd : Reg) (o : ShiftReg) : Statement (.orrShiftReg c sf rn rd o) :=
  dp _ _ _ _ _ _ (shiftReg o)

theorem movImm (c : Cond) (sf : Bool) (rn rd : Reg) (o : RotImm) : Statement (.movImm c sf rn rd o) :=
  dp _ _ _ _ _ _ (rotImm o)

theorem movShiftImm (c : Cond) (sf : Bool) (rn rd : Reg) (o : ShiftImm) : Statement (.movShiftImm c sf rn rd o) :=
  dp _ _ _ _ _ _ (shiftImm o)

theorem movShiftReg (c : Cond) (sf : Bool) (rn rd : Reg) (o : ShiftReg) : Statement (.movShiftReg c sf rn rd o) :=
  dp _ _ _ _ _ _ (shiftReg o)

theorem bicImm (c : Cond) (sf : Bool) (rn rd : Reg) (o : RotImm) : Statement (.bicImm c sf rn rd o) :=
  dp _ _ _ _ _ _ (rotImm o)

theorem bicShiftImm (c : Cond) (sf : Bool) (rn rd : Reg) (o : ShiftImm) : Statement (.bicShiftImm c sf rn rd o) :=
  dp _ _ _ _ _ _ (shiftImm o)

theorem bicShiftReg (c : Cond) (sf : Bool) (rn rd : Reg) (o : ShiftReg) : Statement (.bicShiftReg c sf rn rd o) :=
  dp _ _ _ _ _ _ (shiftReg o)

theorem mvnImm (c : Cond) (sf : Bool) (rn rd : Reg) (o : RotImm) : Statement (.mvnImm c sf rn rd o) :=
  dp _ _ _ _ _ _ (rotImm o)

theorem mvnShiftImm (c : Cond) (sf : Bool) (rn rd : Reg) (o : ShiftImm) : Statement (.mvnShiftImm c sf rn rd o) :=
  dp _ _ _ _ _ _ (shiftImm o)

theorem mvnShiftReg (c : Cond) (sf : Bool) (rn rd : Reg) (o : ShiftReg) : Statement (.mvnShiftReg c sf rn rd o) :=
  dp _ _ _ _ _ _ (shiftReg o)

end Sys2Proof.Laws.CondField
end

