-- ==== Sys2Proof/Tests/Slice0.lean ====
section
/-! SUPPORT. The model's own tests. Expected values come from the spec: words are written out bit by bit from the formats of
`spec/30_encoding.md`, results are the worked examples of the instruction files and of `spec/95_test_vectors.md`. A witness
shows a state and operands that meet all hypotheses of the statement it is named after. -/

namespace Sys2Proof.Tests
open Sys2Proof.Machine Sys2Proof.Claims

/-! ## Ill-formed terms: one for each check of `Instr.wf` -/

/-- The word would be a MUL (row 5 of R85). -/
theorem test_illformed_multiply : (Instr.andShiftReg .al false 0 0 ⟨2, true, .lsl, 1⟩).wf = false := by decide
/-- The word would be a UMULL (row 6). -/
theorem test_illformed_longMultiply : (Instr.addShiftReg .al false 1 0 ⟨3, true, .lsl, 2⟩).wf = false := by decide
/-- The word would be a SWP (row 7). -/
theorem test_illformed_swap : (Instr.tstS0ShiftReg .al 2 0 ⟨0, true, .lsl, 1⟩).wf = false := by decide
/-- The word would be a halfword transfer, register form (rows 8, 9). -/
theorem test_illformed_halfwordReg : (Instr.orrShiftReg .al false 1 0 ⟨0, true, .lsr, 2⟩).wf = false := by decide
/-- The word would be a halfword transfer, immediate form (rows 10, 11). -/
theorem test_illformed_halfwordImm : (Instr.bicShiftReg .al false 1 0 ⟨3, true, .lsr, 2⟩).wf = false := by decide
/-- The word would be an MRS (row 2). -/
theorem test_illformed_mrs : (Instr.tstS0ShiftImm .al 15 0 ⟨0, .lsl, 0⟩).wf = false := by decide
/-- The word would be an MSR (row 3). -/
theorem test_illformed_msr : (Instr.teqS0ShiftImm .al 9 15 ⟨0, .lsl, 0⟩).wf = false := by decide
/-- The word would be an MSR of the flags (row 4). -/
theorem test_illformed_msrFlags : (Instr.cmnS0Imm .al 8 15 ⟨0, 0⟩).wf = false := by decide
/-- The word would be an MSR of the flags (row 4), which wins over the halfword rows (R87); its neighbours are halfword words. -/
theorem test_illformed_halfword_msrFlags :
    (Instr.strhReg .al ⟨true, false, true⟩ 8 15 0).wf = false ∧ (Instr.hwReservedRegSh2 .al ⟨true, false, true⟩ 8 15 0).wf = false ∧
    (Instr.hwReservedRegSh3 .al ⟨true, false, true⟩ 8 15 0).wf = false ∧ (Instr.strhImm .al ⟨true, false, true⟩ 8 15 0 0).wf = false ∧
    (Instr.hwReservedImmSh2 .al ⟨true, false, true⟩ 8 15 0 0).wf = false ∧
    (Instr.hwReservedImmSh3 .al ⟨true, false, true⟩ 8 15 0 0).wf = false ∧
    (Instr.strhReg .al ⟨true, true, true⟩ 8 15 0).wf = true ∧ (Instr.strhReg .al ⟨true, false, true⟩ 8 14 0).wf = true ∧
    (Instr.strhImm .al ⟨true, false, false⟩ 8 15 0 0).wf = true ∧ (Instr.ldrhReg .al ⟨true, false, true⟩ 8 15 0).wf = true := by
  decide

/-- The word would be a BX (row 1). -/
theorem test_illformed_bx : (Instr.teqS0ShiftReg .al 15 15 ⟨15, false, .lsl, 14⟩).wf = false := by decide
/-- `0xE18103B2` matches no halfword row and is ORR (R291). -/
theorem test_wellformed_orr_bit7 : (Instr.orrShiftReg .al false 1 0 ⟨3, true, .lsr, 2⟩).wf = true := by decide

/-! ## Decoding: a word written out from its encoding for every constructor -/

/-- AND: `cond 00 I 0000 S Rn Rd operand2` (R90 to R95). -/
theorem test_decode_and :
    decode 0b0000_00_1_0000_1_0011_0101_0110_10000001 = .andImm .eq true 3 5 ⟨6, 0x81⟩ ∧
    decode 0b0001_00_0_0000_0_0011_0101_10010_10_0_0111 = .andShiftImm .ne false 3 5 ⟨18, .asr, 7⟩ ∧
    decode 0b1101_00_0_0000_1_0011_0101_1001_0_11_1_0111 = .andShiftReg .le true 3 5 ⟨9, false, .ror, 7⟩ := by decide

/-- EOR: `cond 00 I 0001 S Rn Rd operand2` (R90 to R95). -/
theorem test_decode_eor :
    decode 0b0000_00_1_0001_1_0011_0101_0110_10000001 = .eorImm .eq true 3 5 ⟨6, 0x81⟩ ∧
    decode 0b0001_00_0_0001_0_0011_0101_10010_10_0_0111 = .eorShiftImm .ne false 3 5 ⟨18, .asr, 7⟩ ∧
    decode 0b1101_00_0_0001_1_0011_0101_1001_0_11_1_0111 = .eorShiftReg .le true 3 5 ⟨9, false, .ror, 7⟩ := by decide

/-- SUB: `cond 00 I 0010 S Rn Rd operand2` (R90 to R95). -/
theorem test_decode_sub :
    decode 0b0000_00_1_0010_1_0011_0101_0110_10000001 = .subImm .eq true 3 5 ⟨6, 0x81⟩ ∧
    decode 0b0001_00_0_0010_0_0011_0101_10010_10_0_0111 = .subShiftImm .ne false 3 5 ⟨18, .asr, 7⟩ ∧
    decode 0b1101_00_0_0010_1_0011_0101_1001_0_11_1_0111 = .subShiftReg .le true 3 5 ⟨9, false, .ror, 7⟩ := by decide

/-- RSB: `cond 00 I 0011 S Rn Rd operand2` (R90 to R95). -/
theorem test_decode_rsb :
    decode 0b0000_00_1_0011_1_0011_0101_0110_10000001 = .rsbImm .eq true 3 5 ⟨6, 0x81⟩ ∧
    decode 0b0001_00_0_0011_0_0011_0101_10010_10_0_0111 = .rsbShiftImm .ne false 3 5 ⟨18, .asr, 7⟩ ∧
    decode 0b1101_00_0_0011_1_0011_0101_1001_0_11_1_0111 = .rsbShiftReg .le true 3 5 ⟨9, false, .ror, 7⟩ := by decide

/-- ADD: `cond 00 I 0100 S Rn Rd operand2` (R90 to R95). -/
theorem test_decode_add :
    decode 0b0000_00_1_0100_1_0011_0101_0110_10000001 = .addImm .eq true 3 5 ⟨6, 0x81⟩ ∧
    decode 0b0001_00_0_0100_0_0011_0101_10010_10_0_0111 = .addShiftImm .ne false 3 5 ⟨18, .asr, 7⟩ ∧
    decode 0b1101_00_0_0100_1_0011_0101_1001_0_11_1_0111 = .addShiftReg .le true 3 5 ⟨9, false, .ror, 7⟩ := by decide

/-- ADC: `cond 00 I 0101 S Rn Rd operand2` (R90 to R95). -/
theorem test_decode_adc :
    decode 0b0000_00_1_0101_1_0011_0101_0110_10000001 = .adcImm .eq true 3 5 ⟨6, 0x81⟩ ∧
    decode 0b0001_00_0_0101_0_0011_0101_10010_10_0_0111 = .adcShiftImm .ne false 3 5 ⟨18, .asr, 7⟩ ∧
    decode 0b1101_00_0_0101_1_0011_0101_1001_0_11_1_0111 = .adcShiftReg .le true 3 5 ⟨9, false, .ror, 7⟩ := by decide

/-- SBC: `cond 00 I 0110 S Rn Rd operand2` (R90 to R95). -/
theorem test_decode_sbc :
    decode 0b0000_00_1_0110_1_0011_0101_0110_10000001 = .sbcImm .eq true 3 5 ⟨6, 0x81⟩ ∧
    decode 0b0001_00_0_0110_0_0011_0101_10010_10_0_0111 = .sbcShiftImm .ne false 3 5 ⟨18, .asr, 7⟩ ∧
    decode 0b1101_00_0_0110_1_0011_0101_1001_0_11_1_0111 = .sbcShiftReg .le true 3 5 ⟨9, false, .ror, 7⟩ := by decide

/-- RSC: `cond 00 I 0111 S Rn Rd operand2` (R90 to R95). -/
theorem test_decode_rsc :
    decode 0b0000_00_1_0111_1_0011_0101_0110_10000001 = .rscImm .eq true 3 5 ⟨6, 0x81⟩ ∧
    decode 0b0001_00_0_0111_0_0011_0101_10010_10_0_0111 = .rscShiftImm .ne false 3 5 ⟨18, .asr, 7⟩ ∧
    decode 0b1101_00_0_0111_1_0011_0101_1001_0_11_1_0111 = .rscShiftReg .le true 3 5 ⟨9, false, .ror, 7⟩ := by decide

/-- TST: `cond 00 I 1000 S Rn Rd operand2` (R90 to R95). -/
theorem test_decode_tst :
    decode 0b0000_00_1_1000_1_0011_0101_0110_10000001 = .tstImm .eq 3 5 ⟨6, 0x81⟩ ∧
    decode 0b0001_00_0_1000_1_0011_0101_10010_10_0_0111 = .tstShiftImm .ne 3 5 ⟨18, .asr, 7⟩ ∧
    decode 0b1101_00_0_1000_1_0011_0101_1001_0_11_1_0111 = .tstShiftReg .le 3 5 ⟨9, false, .ror, 7⟩ ∧
    decode 0b0000_00_1_1000_0_0011_0101_0110_10000001 = .tstS0Imm .eq 3 5 ⟨6, 0x81⟩ ∧
    decode 0b0001_00_0_1000_0_0011_0101_10010_10_0_0111 = .tstS0ShiftImm .ne 3 5 ⟨18, .asr, 7⟩ ∧
    decode 0b1101_00_0_1000_0_0011_0101_1001_0_11_1_0111 = .tstS0ShiftReg .le 3 5 ⟨9, false, .ror, 7⟩ := by decide

/-- TEQ: `cond 00 I 1001 S Rn Rd operand2` (R90 to R95). -/
theorem test_decode_teq :
    decode 0b0000_00_1_1001_1_0011_0101_0110_10000001 = .teqImm .eq 3 5 ⟨6, 0x81⟩ ∧
    decode 0b0001_00_0_1001_1_0011_0101_10010_10_0_0111 = .teqShiftImm .ne 3 5 ⟨18, .asr, 7⟩ ∧
    decode 0b1101_00_0_1001_1_0011_0101_1001_0_11_1_0111 = .teqShiftReg .le 3 5 ⟨9, false, .ror, 7⟩ ∧
    decode 0b0000_00_1_1001_0_0011_0101_0110_10000001 = .teqS0Imm .eq 3 5 ⟨6, 0x81⟩ ∧
    decode 0b0001_00_0_1001_0_0011_0101_10010_10_0_0111 = .teqS0ShiftImm .ne 3 5 ⟨18, .asr, 7⟩ ∧
    decode 0b1101_00_0_1001_0_0011_0101_1001_0_11_1_0111 = .teqS0ShiftReg .le 3 5 ⟨9, false, .ror, 7⟩ := by decide

/-- CMP: `cond 00 I 1010 S Rn Rd operand2` (R90 to R95). -/
theorem test_decode_cmp :
    decode 0b0000_00_1_1010_1_0011_0101_0110_10000001 = .cmpImm .eq 3 5 ⟨6, 0x81⟩ ∧
    decode 0b0001_00_0_1010_1_0011_0101_10010_10_0_0111 = .cmpShiftImm .ne 3 5 ⟨18, .asr, 7⟩ ∧
    decode 0b1101_00_0_1010_1_0011_0101_1001_0_11_1_0111 = .cmpShiftReg .le 3 5 ⟨9, false, .ror, 7⟩ ∧
    decode 0b0000_00_1_1010_0_0011_0101_0110_10000001 = .cmpS0Imm .eq 3 5 ⟨6, 0x81⟩ ∧
    decode 0b0001_00_0_1010_0_0011_0101_10010_10_0_0111 = .cmpS0ShiftImm .ne 3 5 ⟨18, .asr, 7⟩ ∧
    decode 0b1101_00_0_1010_0_0011_0101_1001_0_11_1_0111 = .cmpS0ShiftReg .le 3 5 ⟨9, false, .ror, 7⟩ := by decide

/-- CMN: `cond 00 I 1011 S Rn Rd operand2` (R90 to R95). -/
theorem test_decode_cmn :
    decode 0b0000_00_1_1011_1_0011_0101_0110_10000001 = .cmnImm .eq 3 5 ⟨6, 0x81⟩ ∧
    decode 0b0001_00_0_1011_1_0011_0101_10010_10_0_0111 = .cmnShiftImm .ne 3 5 ⟨18, .asr, 7⟩ ∧
    decode 0b1101_00_0_1011_1_0011_0101_1001_0_11_1_0111 = .cmnShiftReg .le 3 5 ⟨9, false, .ror, 7⟩ ∧
    decode 0b0000_00_1_1011_0_0011_0101_0110_10000001 = .cmnS0Imm .eq 3 5 ⟨6, 0x81⟩ ∧
    decode 0b0001_00_0_1011_0_0011_0101_10010_10_0_0111 = .cmnS0ShiftImm .ne 3 5 ⟨18, .asr, 7⟩ ∧
    decode 0b1101_00_0_1011_0_0011_0101_1001_0_11_1_0111 = .cmnS0ShiftReg .le 3 5 ⟨9, false, .ror, 7⟩ := by decide

/-- ORR: `cond 00 I 1100 S Rn Rd operand2` (R90 to R95). -/
theorem test_decode_orr :
    decode 0b0000_00_1_1100_1_0011_0101_0110_10000001 = .orrImm .eq true 3 5 ⟨6, 0x81⟩ ∧
    decode 0b0001_00_0_1100_0_0011_0101_10010_10_0_0111 = .orrShiftImm .ne false 3 5 ⟨18, .asr, 7⟩ ∧
    decode 0b1101_00_0_1100_1_0011_0101_1001_0_11_1_0111 = .orrShiftReg .le true 3 5 ⟨9, false, .ror, 7⟩ := by decide

/-- MOV: `cond 00 I 1101 S Rn Rd operand2` (R90 to R95). -/
theorem test_decode_mov :
    decode 0b0000_00_1_1101_1_0011_0101_0110_10000001 = .movImm .eq true 3 5 ⟨6, 0x81⟩ ∧
    decode 0b0001_00_0_1101_0_0011_0101_10010_10_0_0111 = .movShiftImm .ne false 3 5 ⟨18, .asr, 7⟩ ∧
    decode 0b1101_00_0_1101_1_0011_0101_1001_0_11_1_0111 = .movShiftReg .le true 3 5 ⟨9, false, .ror, 7⟩ := by decide

/-- BIC: `cond 00 I 1110 S Rn Rd operand2` (R90 to R95). -/
theorem test_decode_bic :
    decode 0b0000_00_1_1110_1_0011_0101_0110_10000001 = .bicImm .eq true 3 5 ⟨6, 0x81⟩ ∧
    decode 0b0001_00_0_1110_0_0011_0101_10010_10_0_0111 = .bicShiftImm .ne false 3 5 ⟨18, .asr, 7⟩ ∧
    decode 0b1101_00_0_1110_1_0011_0101_1001_0_11_1_0111 = .bicShiftReg .le true 3 5 ⟨9, false, .ror, 7⟩ := by decide

/-- MVN: `cond 00 I 1111 S Rn Rd operand2` (R90 to R95). -/
theorem test_decode_mvn :
    decode 0b0000_00_1_1111_1_0011_0101_0110_10000001 = .mvnImm .eq true 3 5 ⟨6, 0x81⟩ ∧
    decode 0b0001_00_0_1111_0_0011_0101_10010_10_0_0111 = .mvnShiftImm .ne false 3 5 ⟨18, .asr, 7⟩ ∧
    decode 0b1101_00_0_1111_1_0011_0101_1001_0_11_1_0111 = .mvnShiftReg .le true 3 5 ⟨9, false, .ror, 7⟩ := by decide

/-- `cond 01 I P U B W L Rn Rd offset` (R97, R98). -/
theorem test_decode_transfer :
    decode 0b1010_01_0_1_0_0_1_1_0010_1100_100000000001 = .ldrImm .ge ⟨true, false, true⟩ 2 12 0x801 ∧
    decode 0b0110_01_1_0_1_0_0_1_0010_1100_00011_01_0_1101 = .ldrReg .vs ⟨false, true, false⟩ 2 12 ⟨3, .lsr, 13⟩ ∧
    decode 0b1010_01_0_1_0_0_1_0_0010_1100_100000000001 = .strImm .ge ⟨true, false, true⟩ 2 12 0x801 ∧
    decode 0b0110_01_1_0_1_0_0_0_0010_1100_00011_01_0_1101 = .strReg .vs ⟨false, true, false⟩ 2 12 ⟨3, .lsr, 13⟩ ∧
    decode 0b1010_01_0_1_0_1_1_1_0010_1100_100000000001 = .ldrbImm .ge ⟨true, false, true⟩ 2 12 0x801 ∧
    decode 0b0110_01_1_0_1_1_0_1_0010_1100_00011_01_0_1101 = .ldrbReg .vs ⟨false, true, false⟩ 2 12 ⟨3, .lsr, 13⟩ ∧
    decode 0b1010_01_0_1_0_1_1_0_0010_1100_100000000001 = .strbImm .ge ⟨true, false, true⟩ 2 12 0x801 ∧
    decode 0b0110_01_1_0_1_1_0_0_0010_1100_00011_01_0_1101 = .strbReg .vs ⟨false, true, false⟩ 2 12 ⟨3, .lsr, 13⟩ := by decide

/-- `cond 101 L imm24` (R99). -/
theorem test_decode_branch :
    decode 0b1110_101_0_100000000000000000000001 = .b .al 0x800001 ∧
    decode 0b1000_101_1_011111111111111111111110 = .bl .hi 0x7FFFFE := by decide

/-- `cond 00001 U A S RdHi RdLo Rs 1001 Rm` (R100). -/
theorem test_decode_longMultiply :
    decode 0b1100_00001_0_0_1_0001_0010_0011_1001_0100 = .umull .gt true 1 2 3 4 ∧
    decode 0b1100_00001_0_1_1_0001_0010_0011_1001_0100 = .umlal .gt true 1 2 3 4 ∧
    decode 0b1100_00001_1_0_1_0001_0010_0011_1001_0100 = .smull .gt true 1 2 3 4 ∧
    decode 0b1100_00001_1_1_1_0001_0010_0011_1001_0100 = .smlal .gt true 1 2 3 4 := by decide

/-- Multiply, SingleDataSwap (R101). -/
theorem test_decode_multiply_swap :
    decode 0b0100_000000_0_1_0001_0010_0011_1001_0100 = .mul .mi true 1 2 3 4 ∧
    decode 0b0101_000000_1_0_0001_0010_0011_1001_0100 = .mla .pl false 1 2 3 4 ∧
    decode 0b1001_00010_0_00_0001_0010_0000_1001_0100 = .swp .ls 1 2 4 ∧
    decode 0b1011_00010_1_00_0001_0010_0000_1001_0100 = .swpb .lt 1 2 4 := by decide

/-- BranchExchange, MRS, MSR, MSRFlags (R101). -/
theorem test_decode_bx_psr :
    decode 0b0010_0001_0010_1111_1111_1111_0001_1110 = .bx .cs 14 ∧
    decode 0b0011_00010_1_001111_0110_000000000000 = .mrs .cc true 6 ∧
    decode 0b0111_00010_0_1010011111_00000000_0110 = .msr .vc false 6 ∧
    decode 0b1110_00_1_10_1_1010001111_001000001111 = .msrFlags .al true true 0x20F := by decide

/-- `cond 000 P U 0 W L Rn Rd 0000 1 S H 1 Rm` (R101, R291). -/
theorem test_decode_halfwordReg :
    decode 0b1110_000_1_0_0_1_0_0001_0010_0000_1_0_1_1_0100 = .strhReg .al ⟨true, false, true⟩ 1 2 4 ∧
    decode 0b1110_000_1_0_0_1_1_0001_0010_0000_1_0_1_1_0100 = .ldrhReg .al ⟨true, false, true⟩ 1 2 4 ∧
    decode 0b1110_000_1_0_0_1_1_0001_0010_0000_1_1_0_1_0100 = .ldrsbReg .al ⟨true, false, true⟩ 1 2 4 ∧
    decode 0b1110_000_1_0_0_1_1_0001_0010_0000_1_1_1_1_0100 = .ldrshReg .al ⟨true, false, true⟩ 1 2 4 ∧
    decode 0b1110_000_1_0_0_1_0_0001_0010_0000_1_1_0_1_0100 = .hwReservedRegSh2 .al ⟨true, false, true⟩ 1 2 4 ∧
    decode 0b1110_000_1_0_0_1_0_0001_0010_0000_1_1_1_1_0100 = .hwReservedRegSh3 .al ⟨true, false, true⟩ 1 2 4 := by decide

/-- `cond 000 P U 1 W L Rn Rd offs 1 S H 1 offs` (R101, R291). -/
theorem test_decode_halfwordImm :
    decode 0b1110_000_0_1_1_0_0_0001_0010_1010_1_0_1_1_0101 = .strhImm .al ⟨false, true, false⟩ 1 2 0xA 0x5 ∧
    decode 0b1110_000_0_1_1_0_1_0001_0010_1010_1_0_1_1_0101 = .ldrhImm .al ⟨false, true, false⟩ 1 2 0xA 0x5 ∧
    decode 0b1110_000_0_1_1_0_1_0001_0010_1010_1_1_0_1_0101 = .ldrsbImm .al ⟨false, true, false⟩ 1 2 0xA 0x5 ∧
    decode 0b1110_000_0_1_1_0_1_0001_0010_1010_1_1_1_1_0101 = .ldrshImm .al ⟨false, true, false⟩ 1 2 0xA 0x5 ∧
    decode 0b1110_000_0_1_1_0_0_0001_0010_1010_1_1_0_1_0101 = .hwReservedImmSh2 .al ⟨false, true, false⟩ 1 2 0xA 0x5 ∧
    decode 0b1110_000_0_1_1_0_0_0001_0010_1010_1_1_1_1_0101 = .hwReservedImmSh3 .al ⟨false, true, false⟩ 1 2 0xA 0x5 := by decide

/-- BlockDataTransfer and the coprocessor formats (R101). -/
theorem test_decode_block_coproc :
    decode 0b1110_100_0_1_0_1_1_1101_1000000000000001 = .ldm .al ⟨false, true, true⟩ false 13 0x8001 ∧
    decode 0b1110_100_1_0_1_1_0_1101_0100000000000001 = .stm .al ⟨true, false, true⟩ true 13 0x4001 ∧
    decode 0b1110_110_1_1_0_0_1_0011_0010_0001_00000100 = .ldc .al ⟨true, true, false⟩ false 3 2 1 4 ∧
    decode 0b1110_110_1_0_1_0_0_0011_0010_0001_00000100 = .stc .al ⟨true, false, false⟩ true 3 2 1 4 ∧
    decode 0b1110_1110_1010_0001_0010_0011_101_0_0100 = .cdp .al 0xA 1 2 3 5 4 ∧
    decode 0b1110_1110_101_1_0001_0010_0011_110_1_0100 = .mrc .al 5 1 2 3 6 4 ∧
    decode 0b1110_1110_101_0_0001_0010_0011_110_1_0100 = .mcr .al 5 1 2 3 6 4 := by decide

/-- SoftwareInterrupt, Undefined (R101). -/
theorem test_decode_swi_undefined :
    decode 0b1110_1111_000100100011010001010110 = .swi .al 0x123456 ∧
    decode 0b1110_011_10000000000000000001_1_0101 = .undefined .al 0x80001 5 := by decide

/-- R87: where MSRFlags and a halfword row overlap, MSRFlags wins; with `Rd` 14 the halfword row stands alone. -/
theorem test_decode_msrFlags_over_halfword :
    decode 0b1110_00_0_10_0_1010001111_000010110000 = .msrFlags .al false false 0x0B0 ∧
    decode 0b1110_00_0_10_1_1010001111_000011110000 = .msrFlags .al false true 0x0F0 ∧
    decode 0b1110_000_1_0_0_1_0_1000_1110_0000_1011_0000 = .strhReg .al ⟨true, false, true⟩ 8 14 0 := by decide

/-- The bytes of a word lie least significant first (R80), and a string shorter than a word is rejected. -/
theorem test_decode_bytes :
    (decodeBytes [0x55, 0x00, 0x80, 0xE2, 0x99]).toOption = some (.addImm .al false 0 0 ⟨0, 0x55⟩, [0x99]) ∧
    (decodeBytes [0x55, 0x00, 0x80]).toOption = none := by decide

/-- The host's view of the decoder, on a whole word and on a row's low bits. -/
theorem test_decode_tableWord :
    decodeTableWord 32 0xE2800055 = some (.addImm .al false 0 0 ⟨0, 0x55⟩) ∧
    decodeTableWord 8 0xE28000FF = some (.hwReservedRegSh3 .eq ⟨false, false, false⟩ 0 0 15) := by decide

/-! ## One step of each instruction -/

/-- A machine of 64 bytes with `78 56 34 12 EF CD AB 89` at `0x20`, the word at the PC, and the given registers and flags. -/
def before (word : Nat) (rs : List (Reg × Word)) (f : Flags) : State :=
  rs.foldl (fun s r => s.setReg r.1 r.2)
    (({ State.ofReset ⟨64, [], 0, false⟩ with
        ram := Memory.ofBytes 0x20 [0x78, 0x56, 0x34, 0x12, 0xEF, 0xCD, 0xAB, 0x89], flags := f }).withFetchWord 32 word)

/-- Flags by their four bits. -/
def nzcv (n z c v : Nat) : Flags := ⟨n == 1, z == 1, c == 1, v == 1⟩

/-- The step completes, and the state after it is as `p` says. -/
def stepsTo (s : State) (p : State → Bool) : Bool :=
  match step s with
  | .next t => p t
  | .fault _ => false
  | .refused _ => false

/-- R174: `ands r0, r1, #0xFF000000`, C from the rotation, V unchanged. -/
theorem test_and_immediate_carry :
    stepsTo (before 0xE21104FF [(1, 0x80000001)] (nzcv 0 0 0 1)) (fun t => t.reg 0 == 0x80000000 && t.flags == nzcv 1 0 1 1) = true := by decide

/-- R175: `eors r0, r1, r1`, C passes through. -/
theorem test_eor_self :
    stepsTo (before 0xE0310001 [(1, 0x12345678)] (nzcv 0 0 1 0)) (fun t => t.reg 0 == 0 && t.flags == nzcv 0 1 1 0) = true := by decide

/-- R176: `subs`, C clear on a borrow. -/
theorem test_sub_borrow :
    stepsTo (before 0xE0510002 [(1, 3), (2, 5)] (nzcv 0 0 0 0)) (fun t => t.reg 0 == 0xFFFFFFFE && t.flags == nzcv 1 0 0 0) = true := by decide

/-- R176: signed overflow. -/
theorem test_sub_overflow :
    stepsTo (before 0xE0510002 [(1, 0x80000000), (2, 1)] (nzcv 0 0 0 0)) (fun t => t.reg 0 == 0x7FFFFFFF && t.flags == nzcv 0 0 1 1) = true := by decide

/-- R177: negating `0x80000000`. -/
theorem test_rsb_negate_min :
    stepsTo (before 0xE2710000 [(1, 0x80000000)] (nzcv 0 0 0 0)) (fun t => t.reg 0 == 0x80000000 && t.flags == nzcv 1 0 0 1) = true := by decide

/-- R178: `0x7FFFFFFF + 1`. -/
theorem test_add_overflow :
    stepsTo (before 0xE0910002 [(1, 0x7FFFFFFF), (2, 1)] (nzcv 0 0 0 0)) (fun t => t.reg 0 == 0x80000000 && t.flags == nzcv 1 0 0 1 && t.pc == 4) = true := by decide

/-- R178, R192: `add r0, pc, #4` at 0 gives 8. -/
theorem test_add_pc_reads_plus4 :
    stepsTo (before 0xE28F0004 [] (nzcv 0 0 0 0)) (fun t => t.reg 0 == 8 && t.pc == 4) = true := by decide

/-- R179: `0xFFFFFFFF + 0 + 1`. -/
theorem test_adc_carry_through :
    stepsTo (before 0xE0B10002 [(1, 0xFFFFFFFF), (2, 0)] (nzcv 0 0 1 0)) (fun t => t.reg 0 == 0 && t.flags == nzcv 0 1 1 0) = true := by decide

/-- R180: `0 - 0 - 1`. -/
theorem test_sbc_borrow_in :
    stepsTo (before 0xE0D10002 [(1, 0), (2, 0)] (nzcv 0 0 0 0)) (fun t => t.reg 0 == 0xFFFFFFFF && t.flags == nzcv 1 0 0 0) = true := by decide

/-- R181: `5 - 3 - 1`. -/
theorem test_rsc_borrow_in :
    stepsTo (before 0xE0F10002 [(1, 3), (2, 5)] (nzcv 0 0 0 0)) (fun t => t.reg 0 == 1 && t.flags == nzcv 0 0 1 0) = true := by decide

/-- R182: `tst r1, r2, lsl #1`. -/
theorem test_tst_shift_out :
    stepsTo (before 0xE1110082 [(1, 0xFFFFFFFF), (2, 0xC0000000)] (nzcv 0 0 0 0)) (fun t => t.flags == nzcv 1 0 1 0 && t.reg 0 == 0) = true := by decide

/-- R183: V unchanged. -/
theorem test_teq_keeps_v :
    stepsTo (before 0xE1310002 [(1, 0x80000000), (2, 0)] (nzcv 0 0 0 1)) (fun t => t.flags == nzcv 1 0 0 1) = true := by decide

/-- R184: `(1, 0x80000000)`. -/
theorem test_cmp_signed_unsigned :
    stepsTo (before 0xE1510002 [(1, 1), (2, 0x80000000)] (nzcv 0 0 0 0)) (fun t => t.flags == nzcv 1 0 0 1) = true := by decide

/-- R185: `1 + 0xFFFFFFFF`. -/
theorem test_cmn_wraps :
    stepsTo (before 0xE1710002 [(1, 1), (2, 0xFFFFFFFF)] (nzcv 0 0 0 0)) (fun t => t.flags == nzcv 0 1 1 0) = true := by decide

/-- R186: `orrs r0, r1, #0x80000000`. -/
theorem test_orr_immediate :
    stepsTo (before 0xE3910102 [(1, 1)] (nzcv 0 0 0 0)) (fun t => t.reg 0 == 0x80000001 && t.flags == nzcv 1 0 1 0) = true := by decide

/-- R187, R150: a register amount of 0 is a shift by 32. -/
theorem test_mov_lsr_register_zero :
    stepsTo (before 0xE1B00231 [(1, 0x80000001), (2, 0x100)] (nzcv 0 0 0 0)) (fun t => t.reg 0 == 0 && t.flags == nzcv 0 1 1 0) = true := by decide

/-- R187, R171: `movs pc, lr` leaves the flags alone. -/
theorem test_mov_pc_keeps_flags :
    stepsTo (before 0xE1B0F00E [(14, 64)] (nzcv 1 1 1 1)) (fun t => t.pc == 64 && t.flags == nzcv 1 1 1 1) = true := by decide

/-- R188. -/
theorem test_bic_immediate :
    stepsTo (before 0xE3C100FF [(1, 0x12345678)] (nzcv 0 0 0 0)) (fun t => t.reg 0 == 0x12345600 && t.flags == nzcv 0 0 0 0) = true := by decide

/-- R189: `mvns r0, r1`. -/
theorem test_mvn_zero :
    stepsTo (before 0xE1F00001 [(1, 0xFFFFFFFF)] (nzcv 0 0 0 0)) (fun t => t.reg 0 == 0 && t.flags == nzcv 0 1 0 0) = true := by decide

/-- R190: nothing but the PC. -/
theorem test_compare_without_s :
    stepsTo (before 0xE1010002 [(1, 7), (2, 5)] (nzcv 0 1 0 1)) (fun t => t.flags == nzcv 0 1 0 1 && t.pc == 4 && t.reg 0 == 0 && t.reg 1 == 7) = true := by decide

/-- R225: `ldr r0, [r1, #4]!`. -/
theorem test_ldr_writeback :
    stepsTo (before 0xE5B10004 [(1, 0x20)] (nzcv 0 0 0 0)) (fun t => t.reg 0 == 0x89ABCDEF && t.reg 1 == 0x24) = true := by decide

/-- R225: no rotation. -/
theorem test_ldr_unaligned :
    stepsTo (before 0xE5910001 [(1, 0x20)] (nzcv 0 0 0 0)) (fun t => t.reg 0 == 0xEF123456 && t.reg 1 == 0x20) = true := by decide

/-- R231: the write-back wins. -/
theorem test_ldr_base_is_destination :
    stepsTo (before 0xE4911004 [(1, 0x20)] (nzcv 0 0 0 0)) (fun t => t.reg 1 == 0x24) = true := by decide

/-- R225, R222: the unbounded address faults. -/
theorem test_ldr_does_not_wrap :
    stepsTo (before 0xE7910002 [(1, 0xFFFFFFFF), (2, 0x21)] (nzcv 0 0 0 0)) (fun t => t.fault == some ⟨.memoryFault, some .singleDataTransfer, some 0xE7910002, some 0x100000020, 0⟩ && t.reg 0 == 0 && t.pc == 4) = true := by decide

/-- R233: with C clear the offset is 4. -/
theorem test_ldr_rrx_offset :
    stepsTo (before 0xE7910062 [(1, 0x20), (2, 8)] (nzcv 0 0 0 0)) (fun t => t.reg 0 == 0x89ABCDEF) = true := by decide

/-- R226: the old base is stored. -/
theorem test_str_base_writeback :
    stepsTo (before 0xE5A11004 [(1, 0x30)] (nzcv 0 0 0 0)) (fun t => t.ram.getWord 0x34 == 0x30 && t.reg 1 == 0x34) = true := by decide

/-- R226: `str pc` stores `A + 4`. -/
theorem test_str_pc :
    stepsTo (before 0xE581F000 [(1, 0x30)] (nzcv 0 0 0 0)) (fun t => t.ram.getWord 0x30 == 4) = true := by decide

/-- R226: no byte is written. -/
theorem test_str_partly_out_of_ram :
    stepsTo (before 0xE581003E [(0, 0xFFFFFFFF)] (nzcv 0 0 0 0)) (fun t => t.byteAt 62 == 0 && t.byteAt 63 == 0 && t.fault == some ⟨.memoryFault, some .singleDataTransfer, some 0xE581003E, some 62, 0⟩) = true := by decide

/-- R227. -/
theorem test_ldrb_zero_extends :
    stepsTo (before 0xE5D10000 [(0, 0xFFFFFFFF), (1, 0x27)] (nzcv 0 0 0 0)) (fun t => t.reg 0 == 0x89) = true := by decide

/-- R227: `addr = 64`. -/
theorem test_ldrb_past_the_end :
    stepsTo (before 0xE5D10040 [] (nzcv 0 0 0 0)) (fun t => t.fault == some ⟨.memoryFault, some .singleDataTransfer, some 0xE5D10040, some 64, 0⟩) = true := by decide

/-- R228: only the low byte. -/
theorem test_strb_low_byte :
    stepsTo (before 0xE5E10001 [(0, 0x1FF), (1, 0x30)] (nzcv 0 0 0 0)) (fun t => t.byteAt 0x31 == 0xFF && t.byteAt 0x30 == 0 && t.byteAt 0x32 == 0 && t.reg 1 == 0x31) = true := by decide

/-- R253: `0xEAFFFFFD` at 0. -/
theorem test_b_backward :
    stepsTo (before 0xEAFFFFFD [] (nzcv 0 0 0 0)) (fun t => t.pc == 0xFFFFFFFC) = true := by decide

/-- R254: the word XT gives. -/
theorem test_bl_links :
    stepsTo (before 0xEB00000F [] (nzcv 0 0 0 0)) (fun t => t.reg 14 == 4 && t.pc == 68) = true := by decide

/-- R134: condition NV. -/
theorem test_bl_never :
    stepsTo (before 0xFB00000F [] (nzcv 0 0 0 0)) (fun t => t.reg 14 == 0 && t.pc == 4) = true := by decide

/-- R267. -/
theorem test_umull_max :
    stepsTo (before 0xE0810392 [(2, 0xFFFFFFFF), (3, 0xFFFFFFFF)] (nzcv 0 0 0 0)) (fun t => t.reg 1 == 0xFFFFFFFE && t.reg 0 == 1) = true := by decide

/-- R271: the high half stays. -/
theorem test_umull_one_destination :
    stepsTo (before 0xE0800392 [(2, 0x10000), (3, 0x30000)] (nzcv 0 0 0 0)) (fun t => t.reg 0 == 3) = true := by decide

/-- R268: Z from the wrapped sum, C kept. -/
theorem test_umlal_wraps :
    stepsTo (before 0xE0B10392 [(0, 0xFFFFFFFF), (1, 0xFFFFFFFF), (2, 1), (3, 1)] (nzcv 0 0 1 1)) (fun t => t.reg 0 == 0 && t.reg 1 == 0 && t.flags == nzcv 0 1 1 1) = true := by decide

/-- R269. -/
theorem test_smull_negative :
    stepsTo (before 0xE0D10392 [(2, 0x80000000), (3, 1)] (nzcv 0 1 1 1)) (fun t => t.reg 1 == 0xFFFFFFFF && t.reg 0 == 0x80000000 && t.flags == nzcv 1 0 1 1) = true := by decide

/-- R270. -/
theorem test_smlal_negative :
    stepsTo (before 0xE0E10392 [(0, 5), (1, 0), (2, 0xFFFFFFFF), (3, 10)] (nzcv 0 0 0 0)) (fun t => t.reg 1 == 0xFFFFFFFF && t.reg 0 == 0xFFFFFFFB) = true := by decide

/-- A decode gap at address 0: the record is latched, the PC stands at 4, registers, flags and memory are as before. -/
def gapsAt0 (word : Nat) (category : Category) : Bool :=
  let s := before word [(0, 7), (14, 9)] (nzcv 0 1 0 1)
  stepsTo s fun t => t == { s.setPc 4 with fault := some ⟨.decodeGap, some category, some (BitVec.ofNat 32 word), none, 0⟩ }

theorem test_gap_mul : gapsAt0 0xE0000291 .multiply = true := by decide
theorem test_gap_mla : gapsAt0 0xE0203291 .multiply = true := by decide
theorem test_gap_swp : gapsAt0 0xE1020091 .singleDataSwap = true := by decide
theorem test_gap_swpb : gapsAt0 0xE1420091 .singleDataSwap = true := by decide
theorem test_gap_bx : gapsAt0 0xE12FFF1E .branchExchange = true := by decide
theorem test_gap_strh_imm : gapsAt0 0xE1C100B0 .halfWordTransferImmediate = true := by decide
theorem test_gap_strh_reg : gapsAt0 0xE18100B2 .halfWordTransferRegister = true := by decide
theorem test_gap_ldrh_imm : gapsAt0 0xE1D100B0 .halfWordTransferImmediate = true := by decide
theorem test_gap_ldrh_reg : gapsAt0 0xE19100B2 .halfWordTransferRegister = true := by decide
theorem test_gap_ldrsb_imm : gapsAt0 0xE1D100D0 .halfWordTransferImmediate = true := by decide
theorem test_gap_ldrsb_reg : gapsAt0 0xE19100D2 .halfWordTransferRegister = true := by decide
theorem test_gap_ldrsh_imm : gapsAt0 0xE1D100F0 .halfWordTransferImmediate = true := by decide
theorem test_gap_ldrsh_reg : gapsAt0 0xE19100F2 .halfWordTransferRegister = true := by decide
theorem test_gap_hwreserved : gapsAt0 0xE1C100F0 .halfWordTransferImmediate = true := by decide
theorem test_gap_ldm : gapsAt0 0xE8BD8001 .blockDataTransfer = true := by decide
theorem test_gap_stm : gapsAt0 0xE92D4001 .blockDataTransfer = true := by decide
theorem test_gap_mrs : gapsAt0 0xE10F0000 .mrs = true := by decide
theorem test_gap_msr : gapsAt0 0xE129F000 .msr = true := by decide
theorem test_gap_msr_flags : gapsAt0 0xE328F20F .msrFlags = true := by decide
theorem test_gap_ldc : gapsAt0 0xED932100 .coprocDataTransfer = true := by decide
theorem test_gap_stc : gapsAt0 0xED832100 .coprocDataTransfer = true := by decide
theorem test_gap_cdp : gapsAt0 0xEE000100 .coprocDataOperation = true := by decide
theorem test_gap_mrc : gapsAt0 0xEE100F10 .coprocRegisterTransfer = true := by decide
theorem test_gap_mcr : gapsAt0 0xEE000F10 .coprocRegisterTransfer = true := by decide
theorem test_gap_swi : gapsAt0 0xEF123456 .softwareInterrupt = true := by decide
theorem test_gap_undefined : gapsAt0 0xE7F000F0 .undefined = true := by decide

/-- R283: a word of a category without a unit is skipped where its condition fails. -/
theorem test_gap_skipped : stepsTo (before 0x0F000000 [] (nzcv 0 0 0 0)) (fun t => t.fault == none && t.pc == 4) = true := by
  decide

/-- R312: a fetch in the last three bytes of RAM faults and leaves the PC. -/
theorem test_fetch_fault :
    stepsTo ((State.ofReset ⟨6, [], 4, false⟩)) (fun t =>
      t.fault == some ⟨.memoryFault, none, none, some 4, 4⟩ && t.pc == 4) = true := by decide

/-- R324: the run with the sentinel takes two steps and ends normally. -/
theorem test_run_to_sentinel :
    (runLimit 9 (State.ofReset ⟨16, [0x07, 0x00, 0xA0, 0xE3, 0x0E, 0xF0, 0xA0, 0xE1], 0, true⟩)).1 = 2 ∧
    (runLimit 9 (State.ofReset ⟨16, [0x07, 0x00, 0xA0, 0xE3, 0x0E, 0xF0, 0xA0, 0xE1], 0, true⟩)).2.endedNormally = true := by
  decide

/-! ## The machine right after reset, and a word placed for the next fetch -/

/-- The first step from reset, with nothing placed, fetches a zero word (`andeq`), which is skipped (R361). -/
theorem test_reset_first_step : step State.reset = .next (State.reset.setPc 4) := by rfl

theorem test_withFetchWord :
    step (State.reset.withFetchWord 32 0xE2800055) =
      exec (.addImm .al false 0 0 ⟨0, 0x55⟩) ((State.reset.withFetchWord 32 0xE2800055).setPc 4) := by rfl

/-- Placing a word changes nothing but the bytes it takes. -/
theorem test_withFetchWord_reset :
    State.reset.withFetchWord 32 0xE2800055 = { State.reset with ram := [(0, 0x55), (2, 0x80), (3, 0xE2)] } := by decide

/-- The 32-bit view of the flags (R28). -/
theorem test_flagsWord : (State.reset.setFlags (nzcv 1 0 1 0)).flagsWord = 0xA0000000 := by decide

/-! ## Witnesses: the hypotheses of every statement are met together -/

/-- A machine with an in-range base in register 1, used by the witnesses. -/
def sample : State := before 0xE5910000 [(1, 0x20), (2, 60), (3, 61), (4, 63), (5, 64)] (nzcv 0 0 1 0)

theorem witness_DecodeOfEncode :
    (Instr.orrShiftReg .al false 1 0 ⟨3, true, .lsr, 2⟩).wf = true := by decide

/-- Two entries with equally many mask bits that match one word. -/
theorem witness_ClassifierTable :
    (⟨0x0E400FB0, 0x000000B0, .halfWordTransferRegister⟩ : TableEntry) ∈ declarationTable ∧
    (⟨0x0E400FD0, 0x000000D0, .halfWordTransferRegister⟩ : TableEntry) ∈ declarationTable ∧
    TableEntry.matches ⟨0x0E400FB0, 0x000000B0, .halfWordTransferRegister⟩ 0xE19100F2 = true ∧
    TableEntry.matches ⟨0x0E400FD0, 0x000000D0, .halfWordTransferRegister⟩ 0xE19100F2 = true ∧
    TableEntry.popCount ⟨0x0E400FB0, 0x000000B0, .halfWordTransferRegister⟩ =
      TableEntry.popCount ⟨0x0E400FD0, 0x000000D0, .halfWordTransferRegister⟩ := by decide

theorem witness_ConditionPairs :
    (0b1110 : BitVec 4).getLsbD 0 = false ∧ (0 : Reg) ≠ 15 := by decide

theorem witness_FailingCondition :
    condPass (Instr.swi .eq 0).cond State.reset.flags = false ∧ State.reset.halted = false ∧
    fetch State.reset = some 0 ∧ condPass (Cond.ofBits (field 0 28 4)) State.reset.flags = false := by decide

/-- The boundary amounts 0, 1, 31, 32, 33, 255. -/
theorem witness_ShiftLeft :
    shift true .lsl 0 0x80000001 = (true, 0x80000001) ∧ shift false .lsl 1 0x80000001 = (true, 2) ∧
    shift false .lsl 31 0x80000003 = (true, 0x80000000) ∧ shift false .lsl 32 0x80000001 = (true, 0) ∧
    shift true .lsl 33 0xFFFFFFFF = (false, 0) ∧ shift true .lsl 255 0xFFFFFFFF = (false, 0) := by decide

theorem witness_ShiftRight :
    shift false .lsr 0 0x80000001 = (true, 0) ∧ shift false .lsr 1 0x80000001 = (true, 0x40000000) ∧
    shift true .lsr 31 0x80000001 = (false, 1) ∧ shift false .lsr 32 0x80000001 = (true, 0) ∧
    shift true .lsr 33 0xFFFFFFFF = (false, 0) ∧ shift true .lsr 255 0xFFFFFFFF = (false, 0) := by decide

theorem witness_ShiftArithmetic :
    shift false .asr 0 0x80000001 = (true, 0xFFFFFFFF) ∧ shift false .asr 1 0x80000001 = (true, 0xC0000000) ∧
    shift true .asr 31 0x80000001 = (false, 0xFFFFFFFF) ∧ shift true .asr 31 0x40000000 = (true, 0) ∧
    shift false .asr 32 0x80000001 = (true, 0xFFFFFFFF) ∧ shift true .asr 255 0x7FFFFFFF = (false, 0) := by decide

theorem witness_RotateRight :
    shift true .ror 0 0x00000001 = (true, 0x80000000) ∧ shift false .ror 1 0x00000001 = (true, 0x80000000) ∧
    shift false .ror 31 0x80000001 = (false, 0x00000003) ∧ shift false .ror 32 0x80000001 = (true, 0x80000001) ∧
    shift false .ror 33 0x80000001 = (true, 0xC0000000) ∧ shift false .ror 255 0x80000001 = (false, 0x00000003) := by decide

theorem witness_OperandForms :
    (⟨1, 3⟩ : RotImm).rot ≠ 0 ∧ (⟨15, 3⟩ : RotImm).rot ≠ 0 := by decide

theorem witness_AndResult :
    condPass .cs sample.flags = true := by decide

theorem witness_EorResult :
    condPass .al sample.flags = true := by decide

theorem witness_SubResult :
    condPass .ne sample.flags = true := by decide

theorem witness_RsbResult :
    condPass .al sample.flags = true := by decide

theorem witness_AddResult :
    condPass .hi sample.flags = true := by decide

theorem witness_AdcResult :
    condPass .al sample.flags = true := by decide

theorem witness_SbcResult :
    condPass .al sample.flags = true := by decide

theorem witness_RscResult :
    condPass .al sample.flags = true := by decide

theorem witness_TstFlags :
    condPass .al sample.flags = true := by decide

theorem witness_TeqFlags :
    condPass .al sample.flags = true := by decide

theorem witness_CmpFlags :
    condPass .al sample.flags = true := by decide

theorem witness_CmnFlags :
    condPass .al sample.flags = true := by decide

theorem witness_OrrResult :
    condPass .al sample.flags = true := by decide

theorem witness_MovResult :
    condPass .al sample.flags = true := by decide

theorem witness_BicResult :
    condPass .al sample.flags = true := by decide

theorem witness_MvnResult :
    condPass .al sample.flags = true := by decide

theorem witness_BranchTarget :
    condPass .al sample.flags = true := by decide

theorem witness_BranchLink :
    condPass .al sample.flags = true := by decide

theorem witness_UmullResult :
    condPass .al sample.flags = true := by decide

theorem witness_UmlalResult :
    condPass .al sample.flags = true := by decide

theorem witness_SmullResult :
    condPass .al sample.flags = true := by decide

theorem witness_SmlalResult :
    condPass .al sample.flags = true := by decide

theorem witness_GapsOfMultiplySwapStatus :
    condPass .al sample.flags = true := by decide

theorem witness_GapsOfBlockCoprocSwi :
    condPass .al sample.flags = true := by decide

/-- Each form, the L = 0 ones one field away from the excluded terms. -/
theorem witness_GapsOfHalfword :
    condPass .al sample.flags = true ∧ (Instr.strhReg .al ⟨true, false, true⟩ 8 14 0).wf = true ∧
    (Instr.hwReservedRegSh2 .al ⟨true, false, true⟩ 9 15 0).wf = true ∧
    (Instr.hwReservedRegSh3 .al ⟨false, false, true⟩ 8 15 0).wf = true ∧ (Instr.strhImm .al ⟨true, true, true⟩ 8 15 0 0).wf = true ∧
    (Instr.hwReservedImmSh2 .al ⟨true, false, false⟩ 8 15 0 0).wf = true ∧
    (Instr.hwReservedImmSh3 .al ⟨true, false, true⟩ 8 0 0 0).wf = true ∧ (Instr.ldrhReg .al ⟨true, false, true⟩ 8 15 0).wf = true ∧
    (Instr.ldrsbReg .al ⟨true, false, true⟩ 8 15 0).wf = true ∧ (Instr.ldrshReg .al ⟨true, false, true⟩ 8 15 0).wf = true ∧
    (Instr.ldrhImm .al ⟨true, false, true⟩ 8 15 0 0).wf = true ∧ (Instr.ldrsbImm .al ⟨true, false, true⟩ 8 15 0 0).wf = true ∧
    (Instr.ldrshImm .al ⟨true, false, true⟩ 8 15 0 0).wf = true := by decide

theorem witness_CompareWithoutS :
    classify 0xE1010002 = .dataProcessing ∧ field 0xE1010002 23 2 = 0b10 ∧ bitAt 0xE1010002 20 = false := by decide

theorem witness_AdderEquivalents :
    (14 : Reg) ≠ 15 := by decide

theorem witness_FlagWriters :
    stepsTo (before 0xE0910002 [] (nzcv 0 0 0 0)) (fun t => t.flags != nzcv 0 0 0 0) = true ∧
    decode 0xE0910002 = .addShiftImm .al true 1 0 ⟨0, .lsl, 2⟩ ∧
    exec (decode 0xE0910002) State.reset = .next (State.reset.setFlags (nzcv 0 1 0 0)) ∧
    (State.reset.setFlags (nzcv 0 1 0 0)).flags ≠ State.reset.flags := ⟨by decide, by decide, by rfl, by decide⟩

/-- In bounds at the last address, out of bounds one above it and below 0. -/
theorem witness_LdrResult :
    condPass .al sample.flags = true ∧ sample.ram.wf ∧
    0 ≤ transferAddress ⟨true, true, false⟩ (sample.reg 2) (immOffset 0) ∧
    transferAddress ⟨true, true, false⟩ (sample.reg 2) (immOffset 0) + 4 = sample.ramSize ∧
    (sample.ramSize : Int) < transferAddress ⟨true, true, false⟩ (sample.reg 3) (immOffset 0) + 4 ∧
    transferAddress ⟨true, false, false⟩ (sample.reg 0) (immOffset 1) < 0 := by decide

/-- In bounds at the last address, out of bounds one above it and below 0. -/
theorem witness_StrResult :
    condPass .al sample.flags = true ∧ sample.ram.wf ∧
    0 ≤ transferAddress ⟨true, true, false⟩ (sample.reg 2) (immOffset 0) ∧
    transferAddress ⟨true, true, false⟩ (sample.reg 2) (immOffset 0) + 4 = sample.ramSize ∧
    (sample.ramSize : Int) < transferAddress ⟨true, true, false⟩ (sample.reg 3) (immOffset 0) + 4 ∧
    transferAddress ⟨true, false, false⟩ (sample.reg 0) (immOffset 1) < 0 := by decide

/-- In bounds at the last address, out of bounds one above it and below 0. -/
theorem witness_LdrbResult :
    condPass .al sample.flags = true ∧ sample.ram.wf ∧
    0 ≤ transferAddress ⟨true, true, false⟩ (sample.reg 4) (immOffset 0) ∧
    transferAddress ⟨true, true, false⟩ (sample.reg 4) (immOffset 0) + 1 = sample.ramSize ∧
    (sample.ramSize : Int) < transferAddress ⟨true, true, false⟩ (sample.reg 5) (immOffset 0) + 1 ∧
    transferAddress ⟨true, false, false⟩ (sample.reg 0) (immOffset 1) < 0 := by decide

/-- In bounds at the last address, out of bounds one above it and below 0. -/
theorem witness_StrbResult :
    condPass .al sample.flags = true ∧ sample.ram.wf ∧
    0 ≤ transferAddress ⟨true, true, false⟩ (sample.reg 4) (immOffset 0) ∧
    transferAddress ⟨true, true, false⟩ (sample.reg 4) (immOffset 0) + 1 = sample.ramSize ∧
    (sample.ramSize : Int) < transferAddress ⟨true, true, false⟩ (sample.reg 5) (immOffset 0) + 1 ∧
    transferAddress ⟨true, false, false⟩ (sample.reg 0) (immOffset 1) < 0 := by decide

/-- In bounds at the last address, out of bounds one above it and below 0. -/
theorem witness_TransferFault :
    condPass .al sample.flags = true ∧ sample.ram.wf ∧
    0 ≤ transferAddress ⟨true, true, false⟩ (sample.reg 2) (immOffset 0) ∧
    transferAddress ⟨true, true, false⟩ (sample.reg 2) (immOffset 0) + 4 = sample.ramSize ∧
    (sample.ramSize : Int) < transferAddress ⟨true, true, false⟩ (sample.reg 3) (immOffset 0) + 4 ∧
    transferAddress ⟨true, false, false⟩ (sample.reg 0) (immOffset 1) < 0 := by decide

theorem witness_MemoryWriters :
    exec (decode 0xE5C10000) (sample.setReg 0 0xFF) = .next ((sample.setReg 0 0xFF).setRam (sample.ram.set 0x20 0xFF)) ∧
    ((sample.setReg 0 0xFF).setRam (sample.ram.set 0x20 0xFF)).byteAt 0x20 ≠ (sample.setReg 0 0xFF).byteAt 0x20 := ⟨by rfl, by decide⟩

theorem witness_PcWriters :
    exec (decode 0xEA000000) sample = .next (sample.setPc 4) ∧ (sample.setPc 4).pc ≠ sample.pc := ⟨by rfl, by decide⟩

theorem witness_StepDecodeGap :
    (before 0xEF123456 [] (nzcv 0 0 0 0)).halted = false ∧ fetch (before 0xEF123456 [] (nzcv 0 0 0 0)) = some 0xEF123456 ∧
    condPass (Cond.ofBits (field 0xEF123456 28 4)) (nzcv 0 0 0 0) = true ∧ (classify 0xEF123456).executes = false := by decide

theorem witness_StepRunsDecodedInstruction :
    sample.fault = none ∧ sample.pc.toNat + 4 ≤ sample.ramSize ∧
    (decodeBytes [sample.byteAt sample.pc.toNat, sample.byteAt (sample.pc.toNat + 1), sample.byteAt (sample.pc.toNat + 2),
      sample.byteAt (sample.pc.toNat + 3)]).toOption = some (.ldrImm .al ⟨true, true, false⟩ 1 0 0, []) := by decide

theorem witness_HaltedIsAbsorbing :
    (State.ofReset ⟨64, [], 64, false⟩).status = .halted ∧ (State.ofReset ⟨64, [], 63, false⟩).status = .running := by decide

/-- The last address a fetch reads whole, and the first it does not. -/
theorem witness_FetchWord :
    (State.ofReset ⟨64, [], 60, false⟩).halted = false ∧ 60 + 4 ≤ (State.ofReset ⟨64, [], 60, false⟩).ramSize ∧
    (State.ofReset ⟨64, [], 61, false⟩).halted = false ∧ (State.ofReset ⟨64, [], 61, false⟩).ramSize < 61 + 4 := by decide

theorem witness_PreciseFaults :
    stepsTo (before 0xEF000000 [] (nzcv 0 0 0 0)) (fun t => t.fault != none) = true := by decide

theorem witness_ReadAfterWrite :
    sample.ram.wf ∧ memWrite sample 59 .word 0x12345678 = some (sample.setRam (sample.ram.setWord 59 0x12345678)) ∧
    59 + 5 ≤ sample.ramSize := by decide

theorem witness_StoreSeenByNextFetch :
    condPass .al sample.flags = true ∧ sample.ram.wf ∧ sample.fault = none ∧
    transferAddress ⟨true, true, false⟩ (sample.reg 0) (immOffset 0) = sample.pc.toNat ∧
    sample.pc.toNat + 4 ≤ sample.ramSize ∧ writesBack ⟨true, true, false⟩ = false := by decide

theorem witness_StepKeepsInvariant :
    sample.Inv ∧ stepsTo sample (fun t => t.reg 0 == 0x12345678) = true := by decide

theorem witness_ResetInvariant :
    resetMachine ⟨64, [1, 0, 2], 0, true⟩ = some (State.ofReset ⟨64, [1, 0, 2], 0, true⟩) := by decide

/-- The bounds of each precondition. -/
theorem witness_ResetState :
    (⟨1, [7], 0, true⟩ : ResetArgs).valid = true ∧ (⟨4294967296, [], 0, true⟩ : ResetArgs).valid = true ∧
    (⟨0, [], 0, false⟩ : ResetArgs).valid = false ∧ (⟨4294967297, [], 0, false⟩ : ResetArgs).valid = false ∧
    (⟨1, [7, 8], 0, false⟩ : ResetArgs).valid = false := by decide

end Sys2Proof.Tests
end

section
/-! The classifier read on the fields of the word: the walk of the priority table is the decision procedure the decoder uses
(`spec/30_encoding.md` R83, R86, R89). -/

namespace Sys2Proof

/-! ## A mask over whole fields -/

/-- The mask that covers the listed fields, each the pair of its lowest bit and its length. -/
def maskOfFields (fs : List (Nat × Nat)) : Word := fs.foldr (fun f m => place f.1 (BitVec.allOnes f.2) ||| m) 0

theorem and_or_eq_iff (x y a b : Word) : x &&& (a ||| b) = y &&& (a ||| b) ↔ x &&& a = y &&& a ∧ x &&& b = y &&& b := by
  simp only [BitVec.eq_of_getLsbD_eq_iff, BitVec.getLsbD_and, BitVec.getLsbD_or]
  grind

theorem and_fieldMask_eq_iff (x y : Word) (lo len : Nat) :
    x &&& place lo (BitVec.allOnes len) = y &&& place lo (BitVec.allOnes len) ↔ field x lo len = field y lo len := by
  simp only [BitVec.eq_of_getLsbD_eq_iff, BitVec.getLsbD_and, getLsbD_field, getLsbD_place, BitVec.getLsbD_allOnes]
  constructor
  · intro h i hi
    by_cases hb : lo + i < 32
    · simpa [hi, hb] using h (lo + i) hb
    · rw [BitVec.getLsbD_of_ge x _ (by omega), BitVec.getLsbD_of_ge y _ (by omega)]
  · intro h i hi
    by_cases hb : lo ≤ i ∧ i - lo < len
    · obtain ⟨h1, h2⟩ := hb
      simpa [hi, h1, h2] using h (i - lo) h2
    · grind

theorem and_maskOfFields_eq_iff (x y : Word) (fs : List (Nat × Nat)) :
    x &&& maskOfFields fs = y &&& maskOfFields fs ↔ ∀ f ∈ fs, field x f.1 f.2 = field y f.1 f.2 := by
  induction fs with
  | nil => simp [maskOfFields]
  | cons f fs ih =>
    rw [List.forall_mem_cons, ← ih, ← and_fieldMask_eq_iff, ← and_or_eq_iff]
    rfl

/-! ## The walk of a table, field by field -/

/-- The mask of the entry covers exactly the listed fields, and its pattern has no bit outside them. -/
abbrev TableEntry.Covers (e : TableEntry) (fs : List (Nat × Nat)) : Prop :=
  e.mask = maskOfFields fs ∧ e.pattern &&& e.mask = e.pattern

theorem TableEntry.matches_of_covers {e : TableEntry} {fs : List (Nat × Nat)} (h : e.Covers fs) (w : Word) :
    e.matches w = fs.all fun f => field w f.1 f.2 == field e.pattern f.1 f.2 := by
  obtain ⟨hm, hp⟩ := h
  rw [Bool.eq_iff_iff, TableEntry.matches, beq_iff_eq, ← hp, hm, and_maskOfFields_eq_iff, ← hm, hp]
  simp

/-- `classifyBy` with each entry tested on its fields. -/
def classifyByFields : List (TableEntry × List (Nat × Nat)) → Word → Category
  | [], _ => .undefined
  | (e, fs) :: rest, w =>
    if fs.all fun f => field w f.1 f.2 == field e.pattern f.1 f.2 then e.category else classifyByFields rest w

theorem classifyBy_eq_classifyByFields (t : List (TableEntry × List (Nat × Nat))) (h : ∀ p ∈ t, p.1.Covers p.2)
    (w : Word) : classifyBy (t.map Prod.fst) w = classifyByFields t w := by
  induction t with
  | nil => rfl
  | cons p t ih =>
    obtain ⟨hp, ht⟩ := List.forall_mem_cons.mp h
    simp only [List.map_cons, classifyBy, classifyByFields, TableEntry.matches_of_covers hp, ih ht]

/-- The entries of the priority table (R86), each with the fields under its mask, cut as R89 reads them. -/
def priorityFields : List (TableEntry × List (Nat × Nat)) :=
  priorityTable.zip
    [ [(26, 2), (4, 24)],
      [(26, 2), (23, 5), (16, 6), (0, 12)],
      [(26, 2), (23, 5), (4, 18)],
      [(26, 2), (23, 5), (20, 2), (4, 8)],
      [(26, 2), (23, 2), (12, 10)],
      [(26, 2), (25, 1), (22, 1), (8, 4), (7, 1), (5, 1), (4, 1)],
      [(26, 2), (25, 1), (22, 1), (8, 4), (7, 1), (6, 1), (4, 1)],
      [(26, 2), (22, 4), (4, 4)],
      [(26, 2), (23, 3), (4, 4)],
      [(26, 2), (25, 1), (22, 1), (7, 1), (5, 1), (4, 1)],
      [(26, 2), (25, 1), (22, 1), (7, 1), (6, 1), (4, 1)],
      [(26, 2), (25, 1), (24, 1), (4, 1)],
      [(26, 2), (25, 1), (24, 1), (4, 1)],
      [(26, 2), (25, 1), (4, 1)],
      [(26, 2), (25, 1), (24, 1)],
      [(26, 2), (25, 1)],
      [(26, 2), (25, 1)],
      [(26, 2), (25, 1)],
      [(26, 2)],
      [(26, 2)] ]

theorem classify_eq_classifyByFields (w : Word) : classify w = classifyByFields priorityFields w :=
  classifyBy_eq_classifyByFields priorityFields (by decide) w

/-! ## The tree -/

theorem field_one_eq_one {w : Word} {i : Nat} : field w i 1 = 1#1 ↔ bitAt w i = true := by
  rw [← bitAt_eq_field]; cases bitAt w i <;> decide

theorem field_one_eq_zero {w : Word} {i : Nat} : field w i 1 = 0#1 ↔ bitAt w i = false := by
  rw [← bitAt_eq_field]; cases bitAt w i <;> decide

/-- The walk on `w[27:26] = 00`. R89 tests the halfword immediate forms before the halfword register forms and the multiplies,
the table tests them after these. The two orders agree since `w[7:4] = 1001` rules out a halfword form, and `w[22]` tells the two
halfword categories apart. -/
theorem classify_eq_classifyLow {w : Word} (h : field w 26 2 = 0) : classify w = classifyLow w := by
  have h5 : field w 5 2 = 0#2 ↔ bitAt w 5 = false ∧ bitAt w 6 = false := by
    rw [field_eq_iff (a := 1) (b := 1)]; simp [field_one_eq_zero]
  rw [classify_eq_classifyByFields]
  simp only [priorityFields, priorityTable, BitVec.ofNat_eq_ofNat, List.zip_cons_cons, List.zip_nil_right,
    classifyByFields, field_ofNat, Nat.reducePow, Nat.reduceMod, List.all_cons, h, Nat.reduceShiftRight, BEq.rfl,
    List.all_nil, Bool.and_true, Bool.true_and, beq_iff_eq, BitVec.reduceOfNat, Nat.shiftRight_zero, Bool.and_eq_true,
    field_one_eq_zero, field_one_eq_one, BitVec.reduceBEq, Bool.false_and, Bool.false_eq_true, ↓reduceIte, Nat.zero_mod,
    Nat.zero_shiftRight, Bool.and_self, classifyLow, and_assoc, Bool.not_eq_eq_eq_not, Bool.not_true, bne_iff_ne, ne_eq]
  iterate 5 refine if_congr Iff.rfl rfl ?_
  by_cases h4 : field w 4 4 = 9#4
  · have b5 : bitAt w 5 = false := bitAt_of_field h4 (i := 1) (by decide)
    have b6 : bitAt w 6 = false := bitAt_of_field h4 (i := 2) (by decide)
    simp [h5, b5, b6]
  · simp only [h5, h4, and_false, if_false]
    grind -ext

/-- R89: the walk of the priority table and the tree agree on every word. -/
theorem classify_eq_classifyTree (w : Word) : classify w = classifyTree w := by
  obtain h | h | h | h : field w 26 2 = 0 ∨ field w 26 2 = 1 ∨ field w 26 2 = 2 ∨ field w 26 2 = 3 := by
    generalize field w 26 2 = b; revert b; decide
  · rw [classify_eq_classifyLow h, classifyTree, h]; rfl
  all_goals
    rw [classify_eq_classifyByFields]
    simp [priorityFields, priorityTable, classifyByFields, h, field_ofNat, field_one_eq_zero, field_one_eq_one, classifyTree]
  · cases bitAt w 25 <;> rfl
  · cases bitAt w 25 <;> cases bitAt w 24 <;> cases bitAt w 4 <;> rfl

end Sys2Proof
end

section
/-! What a word does, by its category and its fields: the effect of the decoded instruction under its condition, said once for
all words. Every claim about "a word and a state" starts from `exec_decode`. -/

namespace Sys2Proof.Machine

/-! ## The effect of a word -/

/-- The operation of a data-processing opcode (R174 to R189). -/
def dpOp : DpOp → Bool → Reg → Reg → Bool × Word → State → State
  | .and => andOp
  | .eor => eorOp
  | .sub => subOp
  | .rsb => rsbOp
  | .add => addOp
  | .adc => adcOp
  | .sbc => sbcOp
  | .rsc => rscOp
  | .tst => tstOp
  | .teq => teqOp
  | .cmp => cmpOp
  | .cmn => cmnOp
  | .orr => orrOp
  | .mov => movOp
  | .bic => bicOp
  | .mvn => mvnOp

/-- Operand 2 of a data-processing word (R92 to R94). -/
def operandOf (w : Word) (s : State) : Bool × Word :=
  if bitAt w 25 then immOperand (decodeRotImm w) s
  else if bitAt w 4 then shiftRegOperand (decodeShiftReg w) s
  else shiftImmOperand (decodeShiftImm w) s

/-- The width of a transfer word (R97). -/
def widthOf (w : Word) : Width := if bitAt w 22 then .byte else .word

/-- The offset of a transfer word (R98, R221). -/
def offsetOf (w : Word) (s : State) : Word :=
  if bitAt w 25 then regOffset (decodeShiftImm w) s else immOffset (field w 0 12)

/-- The exact product of a long-multiply word, with the accumulator where the word asks for it (R260, R261, R264). -/
def longValueOf (w : Word) (s : State) : Int :=
  let p := if bitAt w 22 then signedProduct (s.reg (regAt w 0)) (s.reg (regAt w 8))
    else unsignedProduct (s.reg (regAt w 0)) (s.reg (regAt w 8))
  if bitAt w 21 then p + (accumulator (regAt w 16) (regAt w 12) s).toNat else p

/-- The state a word gives when its condition passes, by the category of the word. -/
def effectOf (w : Word) (s : State) : State :=
  match classify w with
  | .dataProcessing => dpOp (DpOp.ofBits (field w 21 4)) (bitAt w 20) (regAt w 16) (regAt w 12) (operandOf w s) s
  | .singleDataTransfer =>
    if bitAt w 20 then loadOp (decode w) (widthOf w) (decodeIndexing w) (regAt w 16) (regAt w 12) (offsetOf w s) s
    else storeOp (decode w) (widthOf w) (decodeIndexing w) (regAt w 16) (regAt w 12) (offsetOf w s) s
  | .branch => branchTo (field w 0 24) (if bitAt w 24 then link s else s)
  | .longMultiply => longResult (bitAt w 20) (regAt w 16) (regAt w 12) (BitVec.ofInt 64 (longValueOf w s)) s
  | cat => decodeGap cat (decode w) s

/-! ## `exec` of each format -/

theorem exec_instrImm (op : DpOp) (c : Cond) (sf : Bool) (rn rd : Reg) (o : RotImm) (s : State) :
    exec (op.instrImm c sf rn rd o) s = guarded c (dpOp op sf rn rd (immOperand o s) s) s := by
  cases op <;> cases sf <;> rfl

theorem exec_instrShiftImm (op : DpOp) (c : Cond) (sf : Bool) (rn rd : Reg) (o : ShiftImm) (s : State) :
    exec (op.instrShiftImm c sf rn rd o) s = guarded c (dpOp op sf rn rd (shiftImmOperand o s) s) s := by
  cases op <;> cases sf <;> rfl

theorem exec_instrShiftReg (op : DpOp) (c : Cond) (sf : Bool) (rn rd : Reg) (o : ShiftReg) (s : State) :
    exec (op.instrShiftReg c sf rn rd o) s = guarded c (dpOp op sf rn rd (shiftRegOperand o s) s) s := by
  cases op <;> cases sf <;> rfl

theorem exec_decodeDataProcessing (c : Cond) (w : Word) (s : State) :
    exec (decodeDataProcessing c w) s =
      guarded c (dpOp (DpOp.ofBits (field w 21 4)) (bitAt w 20) (regAt w 16) (regAt w 12) (operandOf w s) s) s := by
  unfold decodeDataProcessing operandOf
  split
  · exact exec_instrImm ..
  · split
    · exact exec_instrShiftReg ..
    · exact exec_instrShiftImm ..

/-- A transfer word: the unit, `L`, the width and the offset are the word's own, in both offset forms. -/
theorem exec_transfer {w : Word} (h : classify w = .singleDataTransfer) (s : State) :
    exec (decode w) s = guarded (Cond.ofBits (field w 28 4)) (effectOf w s) s := by
  have hd : decode w = if bitAt w 25 then decodeTransferReg (Cond.ofBits (field w 28 4)) w
      else decodeTransferImm (Cond.ofBits (field w 28 4)) w := by
    simp only [decode, ← classify_eq_classifyTree, h]
  simp only [effectOf, h, hd, offsetOf, widthOf, decodeTransferReg, decodeTransferImm]
  cases bitAt w 25 <;> cases bitAt w 20 <;> cases bitAt w 22 <;> rfl

theorem exec_decodeBranch (c : Cond) (w : Word) (s : State) :
    exec (decodeBranch c w) s = guarded c (branchTo (field w 0 24) (if bitAt w 24 then link s else s)) s := by
  unfold decodeBranch
  cases bitAt w 24 <;> rfl

theorem exec_decodeLongMultiply (c : Cond) (w : Word) (s : State) :
    exec (decodeLongMultiply c w) s =
      guarded c (longResult (bitAt w 20) (regAt w 16) (regAt w 12) (BitVec.ofInt 64 (longValueOf w s)) s) s := by
  unfold decodeLongMultiply longValueOf
  cases bitAt w 22 <;> cases bitAt w 21 <;> rfl

/-! ## `exec` of a category without a unit (R280) -/

theorem exec_decodeMultiply (c : Cond) (w : Word) (s : State) :
    exec (decodeMultiply c w) s = guarded c (decodeGap .multiply (decodeMultiply c w) s) s := by
  unfold decodeMultiply; split <;> rfl

theorem exec_decodeSwap (c : Cond) (w : Word) (s : State) :
    exec (decodeSwap c w) s = guarded c (decodeGap .singleDataSwap (decodeSwap c w) s) s := by
  unfold decodeSwap; split <;> rfl

theorem exec_decodeHalfwordReg (c : Cond) (w : Word) (s : State) :
    exec (decodeHalfwordReg c w) s = guarded c (decodeGap .halfWordTransferRegister (decodeHalfwordReg c w) s) s := by
  unfold decodeHalfwordReg; split <;> rfl

theorem exec_decodeHalfwordImm (c : Cond) (w : Word) (s : State) :
    exec (decodeHalfwordImm c w) s = guarded c (decodeGap .halfWordTransferImmediate (decodeHalfwordImm c w) s) s := by
  unfold decodeHalfwordImm; split <;> rfl

theorem exec_decodeBlock (c : Cond) (w : Word) (s : State) :
    exec (decodeBlock c w) s = guarded c (decodeGap .blockDataTransfer (decodeBlock c w) s) s := by
  unfold decodeBlock; split <;> rfl

theorem exec_decodeCoprocTransfer (c : Cond) (w : Word) (s : State) :
    exec (decodeCoprocTransfer c w) s = guarded c (decodeGap .coprocDataTransfer (decodeCoprocTransfer c w) s) s := by
  unfold decodeCoprocTransfer; split <;> rfl

theorem exec_decodeCoprocRegister (c : Cond) (w : Word) (s : State) :
    exec (decodeCoprocRegister c w) s = guarded c (decodeGap .coprocRegisterTransfer (decodeCoprocRegister c w) s) s := by
  unfold decodeCoprocRegister; split <;> rfl

/-! ## `exec` of a word -/

/-- All a word can do: the effect of its category, under the condition in its bits 31 to 28. -/
theorem exec_decode (w : Word) (s : State) :
    exec (decode w) s = guarded (Cond.ofBits (field w 28 4)) (effectOf w s) s := by
  cases h : classify w
  case singleDataTransfer => exact exec_transfer h s
  all_goals simp only [effectOf, h, decode, ← classify_eq_classifyTree]
  case dataProcessing => exact exec_decodeDataProcessing ..
  case branch => exact exec_decodeBranch ..
  case longMultiply => exact exec_decodeLongMultiply ..
  case multiply => exact exec_decodeMultiply ..
  case singleDataSwap => exact exec_decodeSwap ..
  case halfWordTransferRegister => exact exec_decodeHalfwordReg ..
  case halfWordTransferImmediate => exact exec_decodeHalfwordImm ..
  case blockDataTransfer => exact exec_decodeBlock ..
  case coprocDataTransfer => exact exec_decodeCoprocTransfer ..
  case coprocRegisterTransfer => exact exec_decodeCoprocRegister ..
  all_goals rfl

end Sys2Proof.Machine
end

section
/-! The writers of the program counter (`spec/10_state.md` R25, `spec/44_branch.md` R255): what each unit needs in order to
leave another PC, and from that the list over all words. -/

namespace Sys2Proof.Machine

/-! ## Each unit -/

/-- A data-processing operation leaves another PC only by writing `Rd = 15`, which no compare does (R170, R182 to R185). -/
theorem pc_dpOp_ne {op : DpOp} {sf : Bool} {rn rd : Reg} {o : Bool × Word} {s : State}
    (h : (dpOp op sf rn rd o s).pc ≠ s.pc) : op ∉ [.tst, .teq, .cmp, .cmn] ∧ rd = 15 := by
  have logic (sc res) (hl : (logicResult sf rd sc res s).pc ≠ s.pc) : rd = 15 := by
    by_contra hne; simp [State.pc, hne] at hl
  have arith (t) (ha : (arithResult sf rd t s).pc ≠ s.pc) : rd = 15 := by
    by_contra hne; simp [State.pc, hne] at ha
  cases op
  case tst | teq | cmp | cmn => exact absurd rfl h
  case and | eor | orr | mov | bic | mvn => exact ⟨by decide, logic _ _ h⟩
  case sub | rsb | add | adc | sbc | rsc => exact ⟨by decide, arith _ h⟩

/-- The write-back leaves another PC only where the base is register 15 (R224). -/
theorem pc_writeBackBase_of_not {ix : Indexing} {rn : Reg} (h : ¬(writesBack ix = true ∧ rn = 15)) (base off : Word)
    (s : State) : (writeBackBase ix rn base off s).pc = s.pc := by
  rw [State.pc, reg_writeBackBase, if_neg h, State.pc]

/-- A load leaves another PC only by writing `Rd = 15` or by writing its base 15 back (R220, R224). -/
theorem pc_loadOp_ne {i : Instr} {n : Width} {ix : Indexing} {rn rd : Reg} {off : Word} {s : State}
    (h : (loadOp i n ix rn rd off s).pc ≠ s.pc) : rd = 15 ∨ (writesBack ix = true ∧ rn = 15) := by
  by_contra hno
  obtain ⟨hrd, hrn⟩ := not_or.mp hno
  obtain ⟨v, -, hl⟩ | ⟨-, hl⟩ := loadOp_cases i n ix rn rd off s
  · rw [hl, pc_writeBackBase_of_not hrn, State.pc_setReg_ne _ _ hrd] at h
    exact h rfl
  · rw [hl, pc_raise] at h
    exact h rfl

/-- A store leaves another PC only by writing its base 15 back (R220, R224). -/
theorem pc_storeOp_ne {i : Instr} {n : Width} {ix : Indexing} {rn rd : Reg} {off : Word} {s : State}
    (h : (storeOp i n ix rn rd off s).pc ≠ s.pc) : writesBack ix = true ∧ rn = 15 := by
  by_contra hrn
  obtain ⟨t, hw, hs⟩ | ⟨-, hs⟩ := storeOp_cases i n ix rn rd off s
  · obtain ⟨-, ht, -⟩ := memWrite_eq_some hw
    rw [hs, pc_writeBackBase_of_not hrn, ht, State.pc_setRam] at h
    exact h rfl
  · rw [hs, pc_raise] at h
    exact h rfl

/-- A long multiply leaves another PC only where a destination is register 15 (R263). -/
theorem pc_longResult_ne {sf : Bool} {rdHi rdLo : Reg} {res : DWord} {s : State}
    (h : (longResult sf rdHi rdLo res s).pc ≠ s.pc) : rdHi = 15 ∨ rdLo = 15 := by
  by_contra hno
  obtain ⟨hHi, hLo⟩ := not_or.mp hno
  simp [State.pc, hHi, hLo] at h

/-! ## The fields of the word -/

theorem regAt_eq_pc {w : Word} {lo : Nat} : regAt w lo = 15 ↔ field w lo 4 = 15 := by
  unfold regAt
  generalize field w lo 4 = b
  revert b; decide

/-- `w[24:23] = 10` holds of the compares only (R91). -/
theorem opcode_mem_compares_of_field {w : Word} (h : field w 23 2 = 0b10) :
    DpOp.ofBits (field w 21 4) ∈ [.tst, .teq, .cmp, .cmn] := by
  have hb : (field w 21 4).extractLsb' 2 2 = 0b10 := h ▸ ((field_eq_iff (a := 2) (b := 2)).mp rfl).2.symm
  revert hb
  generalize field w 21 4 = b
  revert b; decide

/-! ## Every word -/

/-- What a word needs to leave another PC, its condition passing. -/
theorem pc_effectOf_ne {w : Word} {s : State} (h : (effectOf w s).pc ≠ s.pc) :
    classify w = .branch ∨
    (classify w = .dataProcessing ∧ field w 23 2 ≠ 0b10 ∧ field w 12 4 = 15) ∨
    (classify w = .singleDataTransfer ∧ bitAt w 20 = true ∧ field w 12 4 = 15) ∨
    (classify w = .singleDataTransfer ∧ (bitAt w 24 = false ∨ bitAt w 21 = true) ∧ field w 16 4 = 15) ∨
    (classify w = .longMultiply ∧ (field w 16 4 = 15 ∨ field w 12 4 = 15)) := by
  have wb : writesBack (decodeIndexing w) = true ↔ bitAt w 24 = false ∨ bitAt w 21 = true := by
    simp [writesBack, decodeIndexing]
  simp only [← regAt_eq_pc, ← wb]
  cases hc : classify w <;> simp only [effectOf, hc] at h
  case branch => exact .inl rfl
  case dataProcessing =>
    obtain ⟨hop, hrd⟩ := pc_dpOp_ne h
    exact .inr (.inl ⟨rfl, fun hf => hop (opcode_mem_compares_of_field hf), hrd⟩)
  case singleDataTransfer =>
    split at h
    next hl =>
      obtain hrd | hrn := pc_loadOp_ne h
      · exact .inr (.inr (.inl ⟨rfl, hl, hrd⟩))
      · exact .inr (.inr (.inr (.inl ⟨rfl, hrn⟩)))
    next => exact .inr (.inr (.inr (.inl ⟨rfl, pc_storeOp_ne h⟩)))
  case longMultiply => exact .inr (.inr (.inr (.inr ⟨rfl, pc_longResult_ne h⟩)))
  all_goals exact absurd rfl h

/-- Settles O57: a word's effect, unit by unit, and a failing condition that changes nothing. -/
theorem pcWriters : Obligations.PcWriters := by
  intro w s t he hpc
  rw [exec_decode] at he
  obtain ⟨hcond, rfl⟩ | ⟨-, rfl⟩ := guarded_cases he
  · exact ⟨hcond, pc_effectOf_ne hpc⟩
  · exact absurd rfl hpc

end Sys2Proof.Machine
end

section
/-! Memory as one byte array (`spec/20_memory.md` R58, R65): what a read gives after a word write, at either width and any
alignment, and that the next fetch reads a word stored at the program counter. -/

namespace Sys2Proof.Machine

/-! ## A read at an address of RAM -/

theorem memRead_byte_of_lt {s : State} {a : Nat} (h : a < s.ramSize) :
    memRead s a .byte = some ((s.byteAt a).setWidth 32) :=
  memRead_of_inBounds (n := .byte) (inBounds_iff.mpr ⟨by omega, by simp only [Width.bytes]; omega⟩)

theorem memRead_word_of_le {s : State} {a : Nat} (h : a + 4 ≤ s.ramSize) :
    memRead s a .word = some (wordOfBytes (s.byteAt a) (s.byteAt (a + 1)) (s.byteAt (a + 2)) (s.byteAt (a + 3))) :=
  memRead_of_inBounds (n := .word) (inBounds_iff.mpr ⟨by omega, by simp only [Width.bytes]; omega⟩)

/-! ## Reading after a word write (R58) -/

/-- The three high bytes of a word below another byte: the word one address up (R58). -/
theorem wordOfBytes_extract_high (v : Word) (b : Byte) :
    wordOfBytes (v.extractLsb' 8 8) (v.extractLsb' 16 8) (v.extractLsb' 24 8) b = b ++ v.extractLsb' 8 24 := by
  apply BitVec.eq_of_getLsbD_eq
  intro i hi
  simp only [wordOfBytes, BitVec.getLsbD_append, BitVec.getLsbD_extractLsb']
  grind

/-- A word read back where it was written is the word (R52, R53). -/
theorem memRead_memWrite_word {s t : State} {addr : Int} {v : Word} (hw : s.ram.wf)
    (h : memWrite s addr .word v = some t) : memRead t addr .word = some v := by
  obtain ⟨hb, -⟩ := memWrite_eq_some h
  rw [memWrite_of_inBounds v hb, Option.some.injEq] at h
  subst h
  have hb' : inBounds (s.setRam (s.ram.setWord addr.toNat v)).ramSize addr .word = true := hb
  exact (memRead_of_inBounds hb').trans (congrArg some (Memory.getWord_setWord hw addr.toNat v))

/-- Settles O54: each read is of bytes that `memWrite_eq_some` gives, byte `k` of `v` at `a + k` and the old byte at
`a + 4`. -/
theorem readAfterWrite : Obligations.ReadAfterWrite := by
  intro s t a v hw h
  obtain ⟨hb, ht, hout, hin, -⟩ := memWrite_eq_some h
  obtain ⟨-, hbytes⟩ := hin hw
  have hsize : t.ramSize = s.ramSize := by rw [ht, State.ramSize_setRam]
  have hle : a + 4 ≤ s.ramSize := by have := (inBounds_iff.mp hb).2; simp only [Width.bytes] at this; omega
  refine ⟨fun k hk => ?_, fun h5 => ?_⟩
  · rw [← Int.natCast_add, memRead_byte_of_lt (by omega)]
    exact congrArg (fun b => some (b.setWidth 32)) (hbytes k hk)
  · have h1 : t.byteAt (a + 1) = v.extractLsb' 8 8 := hbytes 1 (by decide)
    have h2 : t.byteAt (a + 2) = v.extractLsb' 16 8 := hbytes 2 (by decide)
    have h3 : t.byteAt (a + 3) = v.extractLsb' 24 8 := hbytes 3 (by decide)
    have h4 : t.byteAt (a + 4) = s.byteAt (a + 4) := hout _ (.inr (by simp only [Width.bytes]; omega))
    rw [← Int.natCast_add_one, memRead_word_of_le (by omega), h1, h2, h3, h4, wordOfBytes_extract_high]

/-! ## A store seen by the next fetch (R65, R372) -/

theorem memRead_writeBackBase (ix : Indexing) (rn : Reg) (base off : Word) (s : State) (addr : Int) (n : Width) :
    memRead (writeBackBase ix rn base off s) addr n = memRead s addr n := by
  simp only [memRead, ram_writeBackBase, ramSize_writeBackBase]

/-- A step that fetches a word runs that word's instruction after the PC advance (R310). -/
theorem step_of_fetch {s : State} {w : Word} (hl : s.fault = none) (hf : fetch s = some w) :
    step s = exec (decode w) (advancePc s) := by
  have hin : ¬s.ramSize < s.pc.toNat + 4 := fun hlt => by simp [fetch_eq_none.mpr hlt] at hf
  have hh : ¬s.halted = true := fun hh => by
    obtain hfault | hpc := halted_iff.mp hh
    · exact hfault hl
    · omega
  simp only [step, if_neg hh, hf]

/-- A word stored at the program counter, the write-back leaving that alone: no fault, and the fetch gives the word. -/
theorem fetch_storeOp_at_pc {i : Instr} {ix : Indexing} {rn rd : Reg} {off : Word} {s : State} (hw : s.ram.wf)
    (ha : transferAddress ix (s.reg rn) off = s.pc.toNat) (hle : s.pc.toNat + 4 ≤ s.ramSize)
    (hwb : ¬(writesBack ix = true ∧ rn = 15)) :
    (storeOp i .word ix rn rd off s).fault = s.fault ∧ fetch (storeOp i .word ix rn rd off s) = some (s.reg rd) := by
  obtain ⟨t, ht, hs⟩ | ⟨hout, -⟩ := storeOp_cases i .word ix rn rd off s
  · obtain ⟨-, hram, -⟩ := memWrite_eq_some ht
    have hpc : t.pc = s.pc := by rw [hram, State.pc_setRam]
    have hfault : t.fault = s.fault := by rw [hram, State.fault_setRam]
    rw [ha] at ht
    rw [hs, fault_writeBackBase, fetch, pc_writeBackBase_of_not hwb, memRead_writeBackBase, hpc]
    exact ⟨hfault, memRead_memWrite_word hw ht⟩
  · rw [ha, ← Bool.not_eq_true, inBounds_iff] at hout
    exact absurd ⟨by omega, by simp only [Width.bytes]; omega⟩ hout

/-- Settles O55: both offset forms are the word store under its condition, and the store at the PC is what the step after it
fetches. -/
theorem storeSeenByNextFetch : Obligations.StoreSeenByNextFetch := by
  intro c ix rn rd s hc hw hfault
  have seen {i : Instr} {off : Word} (he : exec i s = guarded c (storeOp i .word ix rn rd off s) s)
      (ha : transferAddress ix (s.reg rn) off = s.pc.toNat) (hle : s.pc.toNat + 4 ≤ s.ramSize)
      (hwb : writesBack ix = true → rn ≠ 15) :
      Claims.Next i s fun t => fetch t = some (s.reg rd) ∧ step t = exec (decode (s.reg rd)) (t.setPc (t.pc + 4)) := by
    obtain ⟨hl, hf⟩ := fetch_storeOp_at_pc (i := i) (rd := rd) hw ha hle (not_and.mpr hwb)
    exact ⟨_, he.trans (guarded_pass hc _), hf, step_of_fetch (hl.trans hfault) hf⟩
  exact ⟨fun _ => seen rfl, fun _ => seen rfl⟩

end Sys2Proof.Machine
end

section
/-! The writers of memory (`spec/10_state.md` R32, `spec/20_memory.md` R53, R57, R60): no unit but the store changes RAM, and a
store changes only the bytes at its transfer address. -/

namespace Sys2Proof.Machine

/-! ## Each unit -/

theorem ram_dpOp (op : DpOp) (sf : Bool) (rn rd : Reg) (o : Bool × Word) (s : State) : (dpOp op sf rn rd o s).ram = s.ram := by
  cases op <;> rfl

theorem ram_loadOp (i : Instr) (n : Width) (ix : Indexing) (rn rd : Reg) (off : Word) (s : State) :
    (loadOp i n ix rn rd off s).ram = s.ram := by
  obtain ⟨v, -, hl⟩ | ⟨-, hl⟩ := loadOp_cases i n ix rn rd off s
  · rw [hl, ram_writeBackBase, State.ram_setReg]
  · rw [hl, ram_raise]

/-- A byte that reads otherwise after a store is one it stored to, and the whole access lay in RAM (R53, R54). -/
theorem byteAt_storeOp_ne {i : Instr} {n : Width} {ix : Indexing} {rn rd : Reg} {off : Word} {s : State} {a : Nat}
    (h : (storeOp i n ix rn rd off s).byteAt a ≠ s.byteAt a) :
    0 ≤ transferAddress ix (s.reg rn) off ∧ transferAddress ix (s.reg rn) off + n.bytes ≤ s.ramSize ∧
    transferAddress ix (s.reg rn) off ≤ a ∧ a < transferAddress ix (s.reg rn) off + n.bytes := by
  obtain ⟨t, ht, hs⟩ | ⟨-, hs⟩ := storeOp_cases i n ix rn rd off s
  · obtain ⟨hb, -, hout, -⟩ := memWrite_eq_some ht
    obtain ⟨h0, h1⟩ := inBounds_iff.mp hb
    rw [hs, State.byteAt, ram_writeBackBase] at h
    obtain ⟨hlo, hhi⟩ := not_or.mp fun hne => h (hout a hne)
    exact ⟨h0, h1, not_lt.mp hlo, not_le.mp hhi⟩
  · rw [hs, byteAt_raise] at h
    exact absurd rfl h

/-! ## Every word -/

theorem bytes_widthOf (w : Word) : ((widthOf w).bytes : Int) = if bitAt w 22 then 1 else 4 := by
  unfold widthOf; split <;> rfl

/-- What a word needs to change a byte, its condition passing. -/
theorem byteAt_effectOf_ne {w : Word} {s : State} {a : Nat} (h : (effectOf w s).byteAt a ≠ s.byteAt a) :
    classify w = .singleDataTransfer ∧ bitAt w 20 = false ∧
    0 ≤ Claims.transferAddressOf w s ∧ Claims.transferAddressOf w s + (widthOf w).bytes ≤ s.ramSize ∧
    Claims.transferAddressOf w s ≤ a ∧ a < Claims.transferAddressOf w s + (widthOf w).bytes := by
  cases hc : classify w <;> simp only [effectOf, hc] at h
  case dataProcessing => exact absurd (congrArg (Memory.get · a) (ram_dpOp ..)) h
  case singleDataTransfer =>
    split at h
    next => exact absurd (congrArg (Memory.get · a) (ram_loadOp ..)) h
    next hl => exact ⟨rfl, Bool.eq_false_iff.mpr hl, byteAt_storeOp_ne h⟩
  case branch => exact absurd (by split <;> rfl) h
  all_goals exact absurd rfl h

/-- Settles O56: a word's effect, unit by unit, and a failing condition that changes nothing. -/
theorem memoryWriters : Obligations.MemoryWriters := by
  intro w s t a he hbyte
  rw [exec_decode] at he
  obtain ⟨hcond, rfl⟩ | ⟨-, rfl⟩ := guarded_cases he
  · obtain ⟨hclass, hl, haddr⟩ := byteAt_effectOf_ne hbyte
    rw [bytes_widthOf] at haddr
    exact ⟨hclass, hl, hcond, haddr⟩
  · exact absurd rfl hbyte

end Sys2Proof.Machine
end

section
/-! The formats of the categories (`spec/30_encoding.md` R90 to R101): the decoder of each category apart from the
classifier, and the bits a category's formats fix. A word has the format of the category the classifier gives it. -/

namespace Sys2Proof

/-! ## The decoder of a category -/

/-- What the decoder of the category reads from the word, whatever category the word has (R90 to R101). -/
def decodeAs (cat : Category) (w : Word) : Instr :=
  let c := Cond.ofBits (field w 28 4)
  match cat with
  | .dataProcessing => decodeDataProcessing c w
  | .singleDataTransfer => if bitAt w 25 then decodeTransferReg c w else decodeTransferImm c w
  | .branch => decodeBranch c w
  | .longMultiply => decodeLongMultiply c w
  | .multiply => decodeMultiply c w
  | .singleDataSwap => decodeSwap c w
  | .halfWordTransferRegister => decodeHalfwordReg c w
  | .halfWordTransferImmediate => decodeHalfwordImm c w
  | .blockDataTransfer => decodeBlock c w
  | .branchExchange => .bx c (regAt w 0)
  | .mrs => .mrs c (bitAt w 22) (regAt w 12)
  | .msr => .msr c (bitAt w 22) (regAt w 0)
  | .msrFlags => .msrFlags c (bitAt w 25) (bitAt w 22) (field w 0 12)
  | .coprocDataTransfer => decodeCoprocTransfer c w
  | .coprocDataOperation => .cdp c (field w 20 4) (field w 16 4) (field w 12 4) (field w 8 4) (field w 5 3) (field w 0 4)
  | .coprocRegisterTransfer => decodeCoprocRegister c w
  | .softwareInterrupt => .swi c (field w 0 24)
  | .undefined => .undefined c (field w 5 20) (field w 0 4)

theorem decode_eq_decodeAs (w : Word) : decode w = decodeAs (classifyTree w) w := rfl

/-- The opcode field of a data-processing word (R91). -/
def opAt (w : Word) : DpOp := DpOp.ofBits (field w 21 4)

theorem decodeAs_dpImm {w : Word} (h25 : bitAt w 25 = true) : decodeAs .dataProcessing w =
    (opAt w).instrImm (Cond.ofBits (field w 28 4)) (bitAt w 20) (regAt w 16) (regAt w 12) (decodeRotImm w) := by
  simp only [decodeAs, decodeDataProcessing, h25, if_true, opAt]

theorem decodeAs_dpShiftImm {w : Word} (h25 : bitAt w 25 = false) (h4 : bitAt w 4 = false) : decodeAs .dataProcessing w =
    (opAt w).instrShiftImm (Cond.ofBits (field w 28 4)) (bitAt w 20) (regAt w 16) (regAt w 12) (decodeShiftImm w) := by
  simp only [decodeAs, decodeDataProcessing, h25, h4, Bool.false_eq_true, if_false, opAt]

theorem decodeAs_dpShiftReg {w : Word} (h25 : bitAt w 25 = false) (h4 : bitAt w 4 = true) : decodeAs .dataProcessing w =
    (opAt w).instrShiftReg (Cond.ofBits (field w 28 4)) (bitAt w 20) (regAt w 16) (regAt w 12) (decodeShiftReg w) := by
  simp only [decodeAs, decodeDataProcessing, h25, h4, Bool.false_eq_true, if_false, if_true, opAt]

theorem category_instrImm (op : DpOp) (c : Cond) (sf : Bool) (rn rd : Reg) (o : RotImm) :
    (op.instrImm c sf rn rd o).category = .dataProcessing := by cases op <;> cases sf <;> rfl

theorem category_instrShiftImm (op : DpOp) (c : Cond) (sf : Bool) (rn rd : Reg) (o : ShiftImm) :
    (op.instrShiftImm c sf rn rd o).category = .dataProcessing := by cases op <;> cases sf <;> rfl

theorem category_instrShiftReg (op : DpOp) (c : Cond) (sf : Bool) (rn rd : Reg) (o : ShiftReg) :
    (op.instrShiftReg c sf rn rd o).category = .dataProcessing := by cases op <;> cases sf <;> rfl

theorem category_decodeAs (cat : Category) (w : Word) : (decodeAs cat w).category = cat := by
  cases cat <;> dsimp only [decodeAs]
  case dataProcessing =>
    unfold decodeDataProcessing
    split_ifs
    · exact category_instrImm ..
    · exact category_instrShiftReg ..
    · exact category_instrShiftImm ..
  case singleDataTransfer => unfold decodeTransferReg decodeTransferImm; split <;> split <;> rfl
  case branch => unfold decodeBranch; split <;> rfl
  case longMultiply => unfold decodeLongMultiply; split <;> rfl
  case multiply => unfold decodeMultiply; split <;> rfl
  case singleDataSwap => unfold decodeSwap; split <;> rfl
  case halfWordTransferRegister => unfold decodeHalfwordReg; split <;> rfl
  case halfWordTransferImmediate => unfold decodeHalfwordImm; split <;> rfl
  case blockDataTransfer => unfold decodeBlock; split <;> rfl
  case coprocDataTransfer => unfold decodeCoprocTransfer; split <;> rfl
  case coprocRegisterTransfer => unfold decodeCoprocRegister; split <;> rfl
  all_goals rfl

/-- Settles O3: the two classifiers agree, and each category's decoder gives instructions of that category. -/
theorem classifierTree : Obligations.ClassifierTree := by
  intro w
  rw [classify_eq_classifyTree]
  exact ⟨rfl, category_decodeAs _ w⟩

/-! ## The bits a category fixes -/

/-- The word has the bits that all formats of the category share, cut into the fields of R89. A word can have the
format of several categories; the classifier gives it one of them. -/
def HasFormat (cat : Category) (w : Word) : Prop :=
  match cat with
  | .dataProcessing => field w 26 2 = 0
  | .multiply => field w 26 2 = 0 ∧ field w 22 4 = 0 ∧ field w 4 4 = 0b1001
  | .longMultiply => field w 26 2 = 0 ∧ field w 23 3 = 0b001 ∧ field w 4 4 = 0b1001
  | .singleDataSwap => field w 23 5 = 0b00010 ∧ field w 20 2 = 0 ∧ field w 4 8 = 0x09
  | .halfWordTransferImmediate =>
    field w 26 2 = 0 ∧ bitAt w 25 = false ∧ bitAt w 7 = true ∧ bitAt w 4 = true ∧ field w 5 2 ≠ 0 ∧
      bitAt w 22 = true
  | .halfWordTransferRegister =>
    field w 26 2 = 0 ∧ bitAt w 25 = false ∧ bitAt w 7 = true ∧ bitAt w 4 = true ∧ field w 5 2 ≠ 0 ∧
      bitAt w 22 = false ∧ field w 8 4 = 0
  | .branchExchange => field w 4 24 = 0x12FFF1
  | .mrs => field w 23 5 = 0b00010 ∧ field w 16 6 = 0b001111 ∧ field w 0 12 = 0
  | .msr => field w 23 5 = 0b00010 ∧ field w 4 18 = 0x29F00
  | .msrFlags => field w 26 2 = 0 ∧ field w 23 2 = 0b10 ∧ field w 12 10 = 0x28F
  | .singleDataTransfer => field w 26 2 = 1 ∧ ¬(bitAt w 25 = true ∧ bitAt w 4 = true)
  | .undefined => field w 26 2 = 1 ∧ bitAt w 25 = true ∧ bitAt w 4 = true
  | .blockDataTransfer => field w 26 2 = 2 ∧ bitAt w 25 = false
  | .branch => field w 26 2 = 2 ∧ bitAt w 25 = true
  | .coprocDataTransfer => field w 26 2 = 3 ∧ bitAt w 25 = false
  | .coprocDataOperation => field w 26 2 = 3 ∧ bitAt w 25 = true ∧ bitAt w 24 = false ∧ bitAt w 4 = false
  | .coprocRegisterTransfer => field w 26 2 = 3 ∧ bitAt w 25 = true ∧ bitAt w 24 = false ∧ bitAt w 4 = true
  | .softwareInterrupt => field w 26 2 = 3 ∧ bitAt w 25 = true ∧ bitAt w 24 = true

theorem hasFormat_classifyLow {w : Word} (h : field w 26 2 = 0) : HasFormat (classifyLow w) w := by
  unfold classifyLow
  split_ifs <;> simp_all [HasFormat]

theorem hasFormat_classifyTree (w : Word) : HasFormat (classifyTree w) w := by
  obtain h | h | h | h : field w 26 2 = 0 ∨ field w 26 2 = 1 ∨ field w 26 2 = 2 ∨ field w 26 2 = 3 := by
    generalize field w 26 2 = b; revert b; decide
  · rw [show classifyTree w = classifyLow w by rw [classifyTree, h]; rfl]
    exact hasFormat_classifyLow h
  all_goals
    simp only [classifyTree, h]
    split_ifs <;> simp_all [HasFormat]

end Sys2Proof
end

section
/-! The category of a word that has a category's format (`spec/30_encoding.md` R84, R87, R89). The fields
that R89 tests overlap; cut at the bounds of all of them, each test is a list of plain conditions, and whether two tests
exclude each other can be read off. -/

namespace Sys2Proof

/-! ## The tests of R89, cut into the same fields -/

/-- A field agrees with that of a pattern where each of the fields it is cut into does. -/
theorem field_eq_iff_cut {w : Word} (p : Word) {lo len : Nat} (fs : List (Nat × Nat))
    (h : maskOfFields fs = place lo (BitVec.allOnes len)) :
    field w lo len = field p lo len ↔ ∀ f ∈ fs, field w f.1 f.2 = field p f.1 f.2 := by
  rw [← and_maskOfFields_eq_iff, h, and_fieldMask_eq_iff]

theorem field_4_24_eq {w : Word} : field w 4 24 = 0x12FFF1#24 ↔
    field w 26 2 = 0#2 ∧ bitAt w 25 = false ∧ field w 23 2 = 2#2 ∧ bitAt w 22 = false ∧ field w 20 2 = 2#2 ∧
    field w 16 4 = 15#4 ∧ field w 12 4 = 15#4 ∧ field w 8 4 = 15#4 ∧ bitAt w 7 = false ∧ field w 5 2 = 0#2 ∧
    bitAt w 4 = true := by
  simpa [field_ofNat, field_one_eq_zero, field_one_eq_one] using
    field_eq_iff_cut (w := w) 0x012FFF10 (lo := 4) (len := 24)
      [(26, 2), (25, 1), (23, 2), (22, 1), (20, 2), (16, 4), (12, 4), (8, 4), (7, 1), (5, 2), (4, 1)] (by decide)

theorem field_4_18_eq {w : Word} : field w 4 18 = 0x29F00#18 ↔
    field w 20 2 = 2#2 ∧ field w 16 4 = 9#4 ∧ field w 12 4 = 15#4 ∧ field w 8 4 = 0#4 ∧ bitAt w 7 = false ∧
    field w 5 2 = 0#2 ∧ bitAt w 4 = false := by
  simpa [field_ofNat, field_one_eq_zero] using
    field_eq_iff_cut (w := w) 0x0029F000 (lo := 4) (len := 18)
      [(20, 2), (16, 4), (12, 4), (8, 4), (7, 1), (5, 2), (4, 1)] (by decide)

theorem field_23_5_eq {w : Word} : field w 23 5 = 2#5 ↔
    field w 26 2 = 0#2 ∧ bitAt w 25 = false ∧ field w 23 2 = 2#2 := by
  simpa [field_ofNat, field_one_eq_zero] using
    field_eq_iff_cut (w := w) 0x01000000 (lo := 23) (len := 5) [(26, 2), (25, 1), (23, 2)] (by decide)

theorem field_23_3_eq {w : Word} : field w 23 3 = 1#3 ↔ bitAt w 25 = false ∧ field w 23 2 = 1#2 := by
  simpa [field_ofNat, field_one_eq_zero] using
    field_eq_iff_cut (w := w) 0x00800000 (lo := 23) (len := 3) [(25, 1), (23, 2)] (by decide)

theorem field_22_4_eq {w : Word} : field w 22 4 = 0#4 ↔
    bitAt w 25 = false ∧ field w 23 2 = 0#2 ∧ bitAt w 22 = false := by
  simpa [field_ofNat, field_one_eq_zero] using
    field_eq_iff_cut (w := w) 0 (lo := 22) (len := 4) [(25, 1), (23, 2), (22, 1)] (by decide)

theorem field_16_6_eq {w : Word} : field w 16 6 = 15#6 ↔ field w 20 2 = 0#2 ∧ field w 16 4 = 15#4 := by
  simpa [field_ofNat] using
    field_eq_iff_cut (w := w) 0x000F0000 (lo := 16) (len := 6) [(20, 2), (16, 4)] (by decide)

theorem field_12_10_eq {w : Word} : field w 12 10 = 0x28F#10 ↔
    field w 20 2 = 2#2 ∧ field w 16 4 = 8#4 ∧ field w 12 4 = 15#4 := by
  simpa [field_ofNat] using
    field_eq_iff_cut (w := w) 0x0028F000 (lo := 12) (len := 10) [(20, 2), (16, 4), (12, 4)] (by decide)

theorem field_4_8_eq {w : Word} : field w 4 8 = 9#8 ↔
    field w 8 4 = 0#4 ∧ bitAt w 7 = true ∧ field w 5 2 = 0#2 ∧ bitAt w 4 = true := by
  simpa [field_ofNat, field_one_eq_one] using
    field_eq_iff_cut (w := w) 0x90 (lo := 4) (len := 8) [(8, 4), (7, 1), (5, 2), (4, 1)] (by decide)

theorem field_4_4_eq {w : Word} : field w 4 4 = 9#4 ↔ bitAt w 7 = true ∧ field w 5 2 = 0#2 ∧ bitAt w 4 = true := by
  simpa [field_ofNat, field_one_eq_one] using
    field_eq_iff_cut (w := w) 0x90 (lo := 4) (len := 4) [(7, 1), (5, 2), (4, 1)] (by decide)

theorem field_0_12_eq {w : Word} : field w 0 12 = 0#12 ↔
    field w 8 4 = 0#4 ∧ bitAt w 7 = false ∧ field w 5 2 = 0#2 ∧ bitAt w 4 = false ∧ field w 0 4 = 0#4 := by
  simpa [field_ofNat, field_one_eq_zero] using
    field_eq_iff_cut (w := w) 0 (lo := 0) (len := 12) [(8, 4), (7, 1), (5, 2), (4, 1), (0, 4)] (by decide)

theorem field_7_5_eq {w : Word} : field w 7 5 = 0#5 ↔ field w 8 4 = 0#4 ∧ bitAt w 7 = false := by
  simpa [field_ofNat, field_one_eq_zero] using
    field_eq_iff_cut (w := w) 0 (lo := 7) (len := 5) [(8, 4), (7, 1)] (by decide)

theorem field_23_2_eq_two {w : Word} : field w 23 2 = 2#2 ↔ bitAt w 24 = true ∧ bitAt w 23 = false := by
  simpa [field_ofNat, field_one_eq_zero, field_one_eq_one] using
    field_eq_iff_cut (w := w) 0x01000000 (lo := 23) (len := 2) [(24, 1), (23, 1)] (by decide)

theorem field_20_2_eq_zero {w : Word} : field w 20 2 = 0#2 ↔ bitAt w 21 = false ∧ bitAt w 20 = false := by
  simpa [field_ofNat, field_one_eq_zero] using
    field_eq_iff_cut (w := w) 0 (lo := 20) (len := 2) [(21, 1), (20, 1)] (by decide)

theorem field_20_2_eq_two {w : Word} : field w 20 2 = 2#2 ↔ bitAt w 21 = true ∧ bitAt w 20 = false := by
  simpa [field_ofNat, field_one_eq_zero, field_one_eq_one] using
    field_eq_iff_cut (w := w) 0x00200000 (lo := 20) (len := 2) [(21, 1), (20, 1)] (by decide)

theorem field_5_2_eq_zero {w : Word} : field w 5 2 = 0#2 ↔ bitAt w 6 = false ∧ bitAt w 5 = false := by
  simpa [field_ofNat, field_one_eq_zero] using
    field_eq_iff_cut (w := w) 0 (lo := 5) (len := 2) [(6, 1), (5, 1)] (by decide)

/-! ## What the classifier gives a format -/

/-- A format of a category that R87 lets no other row claim decides the category. -/
theorem classifyTree_of_hasFormat {cat : Category} {w : Word} (h : HasFormat cat w)
    (hcat : cat ∉ [.dataProcessing, .halfWordTransferImmediate, .halfWordTransferRegister]) : classifyTree w = cat := by
  cases cat
  case dataProcessing | halfWordTransferImmediate | halfWordTransferRegister => exact absurd hcat (by decide)
  case multiply | longMultiply | singleDataSwap | branchExchange | mrs | msr | msrFlags =>
    simp_all [HasFormat, classifyTree, classifyLow, field_4_24_eq, field_4_18_eq, field_23_5_eq, field_23_3_eq,
      field_22_4_eq, field_16_6_eq, field_12_10_eq, field_4_8_eq, field_4_4_eq, field_0_12_eq]
  all_goals simp_all [HasFormat, classifyTree]

/-- Of the rows above them, the halfword formats meet MSRFlags only (R87). -/
theorem classifyTree_eq_halfword_iff {cat : Category} {w : Word} (h : HasFormat cat w)
    (hcat : cat ∈ [Category.halfWordTransferImmediate, .halfWordTransferRegister]) :
    classifyTree w = cat ↔ ¬HasFormat .msrFlags w := by
  obtain rfl | rfl := by simpa using hcat
  all_goals
    simp_all [HasFormat, classifyTree, classifyLow, field_4_24_eq, field_4_18_eq, field_23_5_eq, field_16_6_eq,
      field_12_10_eq, field_4_8_eq, field_0_12_eq]

/-- DataProcessing is the last row of the table: it gets the words that have no other format (R84, R86). -/
theorem classifyTree_eq_dataProcessing_iff {w : Word} :
    classifyTree w = .dataProcessing ↔ ∀ cat, cat ≠ .dataProcessing → ¬HasFormat cat w := by
  constructor
  · intro h cat hne hf
    by_cases hhw : cat ∈ [Category.halfWordTransferImmediate, .halfWordTransferRegister]
    · have hm := mt (classifyTree_eq_halfword_iff hf hhw).mpr (h ▸ hne.symm)
      exact absurd (h.symm.trans (classifyTree_of_hasFormat (not_not.mp hm) (by decide))) (by decide)
    · exact hne ((classifyTree_of_hasFormat hf (by simp_all)).symm.trans h)
  · intro h
    by_contra hne
    exact h _ hne (hasFormat_classifyTree w)

end Sys2Proof
end

section
/-! Well-formedness (`Instr.wf`) read on the word: each of its checks is the format of the category that claims the
word, so that an instruction read with the decoder of a category is well-formed exactly where that category is the word's
own. -/

namespace Sys2Proof

/-! ## The opcode field and the operands -/

theorem field_23_2_eq (w : Word) : field w 23 2 = (field w 21 4).extractLsb' 2 2 :=
  ((field_eq_iff (a := 2) (b := 2)).mp rfl).2

theorem bitAt_22_eq (w : Word) : bitAt w 22 = (field w 21 4).getLsbD 1 := bitAt_of_field rfl (i := 1) (by decide)

theorem bitAt_21_eq (w : Word) : bitAt w 21 = (field w 21 4).getLsbD 0 := bitAt_of_field rfl (i := 0) (by decide)

theorem opAt_and_or_eor {w : Word} : opAt w = .and ∨ opAt w = .eor ↔ field w 23 2 = 0#2 ∧ bitAt w 22 = false := by
  rw [opAt, field_23_2_eq, bitAt_22_eq]
  generalize field w 21 4 = b
  revert b; decide

theorem opAt_add_or_carry {w : Word} : ((opAt w = .add ∨ opAt w = .adc) ∨ opAt w = .sbc) ∨ opAt w = .rsc ↔
    field w 23 2 = 1#2 := by
  rw [opAt, field_23_2_eq]
  generalize field w 21 4 = b
  revert b; decide

theorem opAt_tst_or_cmp {w : Word} : opAt w = .tst ∨ opAt w = .cmp ↔ field w 23 2 = 2#2 ∧ bitAt w 21 = false := by
  rw [opAt, field_23_2_eq, bitAt_21_eq]
  generalize field w 21 4 = b
  revert b; decide

theorem opAt_teq_or_cmn {w : Word} : opAt w = .teq ∨ opAt w = .cmn ↔ field w 23 2 = 2#2 ∧ bitAt w 21 = true := by
  rw [opAt, field_23_2_eq, bitAt_21_eq]
  generalize field w 21 4 = b
  revert b; decide

theorem opAt_eq_teq {w : Word} : opAt w = .teq ↔ field w 23 2 = 2#2 ∧ bitAt w 22 = false ∧ bitAt w 21 = true := by
  rw [opAt, field_23_2_eq, bitAt_22_eq, bitAt_21_eq]
  generalize field w 21 4 = b
  revert b; decide

theorem bit1_opAt (w : Word) : (opAt w).bit1 = bitAt w 22 := by
  rw [opAt, bitAt_22_eq]
  generalize field w 21 4 = b
  revert b; decide

theorem ShiftMode.ofBits_eq_lsl : ∀ b : BitVec 2, ShiftMode.ofBits b = .lsl ↔ b = 0#2 := by decide

theorem regAt_eq_iff {w : Word} {lo : Nat} {r : Reg} : regAt w lo = r ↔ field w lo 4 = r.bits := by
  constructor
  · rintro rfl; rw [regAt, Reg.bits_ofBits]
  · intro h; rw [regAt, h, Reg.ofBits_bits]

/-! ## The checks of `Instr.wf` -/

section
variable {w : Word} (h26 : field w 26 2 = 0#2) (h25 : bitAt w 25 = false)
include h26

theorem claimedByMsrFlags_iff : bitAt w 20 = false ∧ (opAt w = .teq ∨ opAt w = .cmn) ∧
    claimedByMsrFlags (regAt w 16) (regAt w 12) = true ↔ HasFormat .msrFlags w := by
  simp [HasFormat, h26, field_12_10_eq, field_20_2_eq_two, opAt_teq_or_cmn, regAt_eq_iff, Reg.bits, and_assoc,
    and_comm, and_left_comm]

theorem claimedByMsrFlags_decodeIndexing : bitAt w 20 = false ∧
    (decodeIndexing w).claimedByMsrFlags (regAt w 16) (regAt w 12) = true ↔ HasFormat .msrFlags w := by
  simp [HasFormat, h26, decodeIndexing, field_12_10_eq, field_23_2_eq_two, field_20_2_eq_two, regAt_eq_iff, Reg.bits, and_assoc,
    and_comm, and_left_comm]

include h25

theorem claimedByMultiply_iff (h4 : bitAt w 4 = true) :
    (decodeShiftReg w).claimedByMultiply (opAt w) = true ↔ HasFormat .multiply w := by
  simp [ShiftReg.claimedByMultiply, decodeShiftReg, HasFormat, h26, h25, h4, field_22_4_eq, field_4_4_eq,
    ShiftMode.ofBits_eq_lsl, opAt_and_or_eor, and_comm]

theorem claimedByLongMultiply_iff (h4 : bitAt w 4 = true) :
    (decodeShiftReg w).claimedByLongMultiply (opAt w) = true ↔ HasFormat .longMultiply w := by
  simp [ShiftReg.claimedByLongMultiply, decodeShiftReg, HasFormat, h26, h25, h4, field_23_3_eq, field_4_4_eq,
    ShiftMode.ofBits_eq_lsl, opAt_add_or_carry, and_comm]

theorem claimedBySwap_iff (h4 : bitAt w 4 = true) :
    (decodeShiftReg w).claimedBySwap (opAt w) (bitAt w 20) = true ↔ HasFormat .singleDataSwap w := by
  simp [ShiftReg.claimedBySwap, decodeShiftReg, HasFormat, h26, h25, h4, field_23_5_eq, field_20_2_eq_zero, field_4_8_eq,
    ShiftMode.ofBits_eq_lsl, opAt_tst_or_cmp, regAt_eq_iff, Reg.bits, and_assoc,
    and_comm, and_left_comm]

theorem claimedByHalfword_iff (h4 : bitAt w 4 = true) : (decodeShiftReg w).claimedByHalfword (opAt w) = true ↔
    HasFormat .halfWordTransferImmediate w ∨ HasFormat .halfWordTransferRegister w := by
  cases h22 : bitAt w 22 <;>
    simp [ShiftReg.claimedByHalfword, decodeShiftReg, HasFormat, h26, h25, h4, h22, ShiftMode.ofBits_eq_lsl, bit1_opAt,
      regAt_eq_iff, Reg.bits, and_assoc]

theorem claimedByBx_iff (h4 : bitAt w 4 = true) : bitAt w 20 = false ∧ opAt w = .teq ∧
    (decodeShiftReg w).claimedByBx (regAt w 16) (regAt w 12) = true ↔ HasFormat .branchExchange w := by
  simp [ShiftReg.claimedByBx, decodeShiftReg, HasFormat, h26, h25, h4, field_4_24_eq, field_20_2_eq_two,
    ShiftMode.ofBits_eq_lsl, opAt_eq_teq, regAt_eq_iff, Reg.bits, and_assoc,
    and_comm, and_left_comm]

theorem claimedByMrs_iff (h4 : bitAt w 4 = false) : bitAt w 20 = false ∧ (opAt w = .tst ∨ opAt w = .cmp) ∧
    (decodeShiftImm w).claimedByMrs (regAt w 16) = true ↔ HasFormat .mrs w := by
  simp [ShiftImm.claimedByMrs, decodeShiftImm, HasFormat, h26, h25, h4, field_23_5_eq, field_16_6_eq, field_0_12_eq,
    field_20_2_eq_zero, field_7_5_eq, ShiftMode.ofBits_eq_lsl, opAt_tst_or_cmp, regAt_eq_iff, Reg.bits, and_assoc,
    and_comm, and_left_comm]

theorem claimedByMsr_iff (h4 : bitAt w 4 = false) : bitAt w 20 = false ∧ (opAt w = .teq ∨ opAt w = .cmn) ∧
    (decodeShiftImm w).claimedByMsr (regAt w 16) (regAt w 12) = true ↔ HasFormat .msr w := by
  simp [ShiftImm.claimedByMsr, decodeShiftImm, HasFormat, h26, h25, h4, field_23_5_eq, field_4_18_eq, field_20_2_eq_two,
    field_7_5_eq, ShiftMode.ofBits_eq_lsl, opAt_teq_or_cmn, regAt_eq_iff, Reg.bits, and_assoc,
    and_comm, and_left_comm]

end

/-! ## `Instr.wf` of each data-processing form -/

theorem wf_instrImm (op : DpOp) (c : Cond) (sf : Bool) (rn rd : Reg) (o : RotImm) :
    (op.instrImm c sf rn rd o).wf = true ↔ ¬(sf = false ∧ (op = .teq ∨ op = .cmn) ∧ claimedByMsrFlags rn rd = true) := by
  cases op <;> cases sf <;> simp [DpOp.instrImm, Instr.wf, -claimedByMsrFlags_eq_true]

theorem wf_instrShiftImm (op : DpOp) (c : Cond) (sf : Bool) (rn rd : Reg) (o : ShiftImm) :
    (op.instrShiftImm c sf rn rd o).wf = true ↔
      ¬(sf = false ∧ (op = .tst ∨ op = .cmp) ∧ o.claimedByMrs rn = true) ∧
      ¬(sf = false ∧ (op = .teq ∨ op = .cmn) ∧ claimedByMsrFlags rn rd = true) ∧
      ¬(sf = false ∧ (op = .teq ∨ op = .cmn) ∧ o.claimedByMsr rn rd = true) := by
  cases op <;> cases sf <;> simp [DpOp.instrShiftImm, Instr.wf, -claimedByMsrFlags_eq_true]

theorem wf_instrShiftReg (op : DpOp) (c : Cond) (sf : Bool) (rn rd : Reg) (o : ShiftReg) :
    (op.instrShiftReg c sf rn rd o).wf = true ↔
      o.unclaimed op sf = true ∧
      ¬(sf = false ∧ (op = .teq ∨ op = .cmn) ∧ claimedByMsrFlags rn rd = true) ∧
      ¬(sf = false ∧ op = .teq ∧ o.claimedByBx rn rd = true) := by
  cases op <;> cases sf <;> simp [DpOp.instrShiftReg, Instr.wf, and_assoc, -claimedByMsrFlags_eq_true]

theorem ShiftReg.unclaimed_iff {op : DpOp} {sf : Bool} {o : ShiftReg} : o.unclaimed op sf = true ↔
    ¬o.claimedByMultiply op = true ∧ ¬o.claimedByLongMultiply op = true ∧ ¬o.claimedBySwap op sf = true ∧
    ¬o.claimedByHalfword op = true := by
  simp [ShiftReg.unclaimed, and_assoc]

/-! ## `Instr.wf` of what a decoder reads -/

section
variable {w : Word} (h26 : field w 26 2 = 0#2)
include h26

theorem wf_decodeAs_dpImm (h25 : bitAt w 25 = true) :
    (decodeAs .dataProcessing w).wf = true ↔ ¬HasFormat .msrFlags w := by
  rw [decodeAs_dpImm h25, wf_instrImm, claimedByMsrFlags_iff h26]

theorem wf_decodeAs_dpShiftImm (h25 : bitAt w 25 = false) (h4 : bitAt w 4 = false) :
    (decodeAs .dataProcessing w).wf = true ↔ ¬HasFormat .mrs w ∧ ¬HasFormat .msrFlags w ∧ ¬HasFormat .msr w := by
  rw [decodeAs_dpShiftImm h25 h4, wf_instrShiftImm, claimedByMsrFlags_iff h26, claimedByMrs_iff h26 h25 h4,
    claimedByMsr_iff h26 h25 h4]

theorem wf_decodeAs_dpShiftReg (h25 : bitAt w 25 = false) (h4 : bitAt w 4 = true) :
    (decodeAs .dataProcessing w).wf = true ↔
      (¬HasFormat .multiply w ∧ ¬HasFormat .longMultiply w ∧ ¬HasFormat .singleDataSwap w ∧
        ¬(HasFormat .halfWordTransferImmediate w ∨ HasFormat .halfWordTransferRegister w)) ∧
      ¬HasFormat .msrFlags w ∧ ¬HasFormat .branchExchange w := by
  rw [decodeAs_dpShiftReg h25 h4, wf_instrShiftReg, ShiftReg.unclaimed_iff, claimedByMsrFlags_iff h26,
    claimedByBx_iff h26 h25 h4, claimedByMultiply_iff h26 h25 h4, claimedByLongMultiply_iff h26 h25 h4,
    claimedBySwap_iff h26 h25 h4, claimedByHalfword_iff h26 h25 h4]

/-- The formats a form's checks do not name differ from it in `w[25]` or `w[4]`. -/
theorem wf_decodeAs_dataProcessing :
    (decodeAs .dataProcessing w).wf = true ↔ ∀ cat, cat ≠ .dataProcessing → ¬HasFormat cat w := by
  cases h25 : bitAt w 25
  case true =>
    rw [wf_decodeAs_dpImm h26 h25]
    refine ⟨fun hn cat hcat hf => ?_, fun no => no _ (by decide)⟩
    cases cat <;> simp_all [HasFormat, field_4_24_eq, field_23_5_eq, field_22_4_eq, field_23_3_eq]
  case false =>
    cases h4 : bitAt w 4
    case false =>
      rw [wf_decodeAs_dpShiftImm h26 h25 h4]
      refine ⟨fun hn cat hcat hf => ?_, fun no => by simp [no]⟩
      cases cat <;> simp_all [HasFormat, field_4_24_eq, field_4_4_eq, field_4_8_eq]
    case true =>
      rw [wf_decodeAs_dpShiftReg h26 h25 h4]
      refine ⟨fun hn cat hcat hf => ?_, fun no => by simp [no]⟩
      cases cat <;> simp_all [HasFormat, field_0_12_eq, field_4_18_eq]

end

theorem wf_of_category {i : Instr}
    (h : i.category ∉ [.dataProcessing, .halfWordTransferImmediate, .halfWordTransferRegister]) : i.wf = true := by
  cases i <;> simp_all [Instr.category, Instr.wf]

theorem wf_decodeHalfwordImm (c : Cond) (w : Word) : (decodeHalfwordImm c w).wf = true ↔
    ¬(bitAt w 20 = false ∧ (decodeIndexing w).claimedByMsrFlags (regAt w 16) (regAt w 12) = true) := by
  unfold decodeHalfwordImm
  split <;> simp_all [Instr.wf, -Indexing.claimedByMsrFlags_eq_true]

theorem wf_decodeHalfwordReg (c : Cond) (w : Word) : (decodeHalfwordReg c w).wf = true ↔
    ¬(bitAt w 20 = false ∧ (decodeIndexing w).claimedByMsrFlags (regAt w 16) (regAt w 12) = true) := by
  unfold decodeHalfwordReg
  split <;> simp_all [Instr.wf, -Indexing.claimedByMsrFlags_eq_true]

/-- `Instr.wf` asks, of what a category's decoder reads in a word of the category's format, that the classifier gives the word
that category. -/
theorem wf_decodeAs_iff {cat : Category} {w : Word} (h : HasFormat cat w) :
    (decodeAs cat w).wf = true ↔ classifyTree w = cat := by
  cases cat
  case dataProcessing => rw [wf_decodeAs_dataProcessing h, classifyTree_eq_dataProcessing_iff]
  case halfWordTransferImmediate =>
    rw [classifyTree_eq_halfword_iff h (by decide), ← claimedByMsrFlags_decodeIndexing h.1]
    exact wf_decodeHalfwordImm ..
  case halfWordTransferRegister =>
    rw [classifyTree_eq_halfword_iff h (by decide), ← claimedByMsrFlags_decodeIndexing h.1]
    exact wf_decodeHalfwordReg ..
  all_goals
    exact iff_of_true (wf_of_category (by rw [category_decodeAs]; decide)) (classifyTree_of_hasFormat h (by decide))

end Sys2Proof
end

section
/-! Reading what was written: the word of every instruction has the format of the instruction's category, and the
category's decoder gives the instruction back (`spec/30_encoding.md` R90 to R101). -/

namespace Sys2Proof

/-! ## The data-processing forms -/

/-- A bit of a literal word, for the simplifier to compute. -/
theorem bitAt_literal (n i : Nat) : bitAt (BitVec.ofNat 32 n) i = (BitVec.ofNat 32 n).getLsbD i := rfl

theorem decodeAs_encodeDp_rotImm (op : DpOp) (c : Cond) (sf : Bool) (rn rd : Reg) (o : RotImm) :
    HasFormat .dataProcessing (encodeDp true op c sf rn rd o.word) ∧
    decodeAs .dataProcessing (encodeDp true op c sf rn rd o.word) = op.instrImm c sf rn rd o := by
  simp (disch := omega) [HasFormat, decodeAs, decodeDataProcessing, decodeRotImm, regAt, encodeDp, RotImm.word,
    place1, field_place_same, field_place_other, bitAt_place_same, bitAt_place_other]

theorem decodeAs_encodeDp_shiftImm (op : DpOp) (c : Cond) (sf : Bool) (rn rd : Reg) (o : ShiftImm) :
    HasFormat .dataProcessing (encodeDp false op c sf rn rd o.word) ∧
    decodeAs .dataProcessing (encodeDp false op c sf rn rd o.word) = op.instrShiftImm c sf rn rd o := by
  simp (disch := omega) [HasFormat, decodeAs, decodeDataProcessing, decodeShiftImm, regAt, encodeDp, ShiftImm.word,
    place1, field_place_same, field_place_other, bitAt_place_same, bitAt_place_other]

theorem decodeAs_encodeDp_shiftReg (op : DpOp) (c : Cond) (sf : Bool) (rn rd : Reg) (o : ShiftReg) :
    HasFormat .dataProcessing (encodeDp false op c sf rn rd o.word) ∧
    decodeAs .dataProcessing (encodeDp false op c sf rn rd o.word) = op.instrShiftReg c sf rn rd o := by
  simp (disch := omega) [HasFormat, decodeAs, decodeDataProcessing, decodeShiftReg, regAt, encodeDp, ShiftReg.word,
    place1, field_place_same, field_place_other, field_ofNat, bitAt_place_same, bitAt_place_other, bitAt_literal]

/-! ## Every instruction -/

/-- The word of an instruction has the format of its category, and that category's decoder reads the operands back from it. A
data-processing instruction is one of the three forms of its opcode. -/
theorem decodeAs_encode (i : Instr) : HasFormat i.category (encode i) ∧ decodeAs i.category (encode i) = i := by
  cases i
  case andImm | eorImm | subImm | rsbImm | addImm | adcImm | sbcImm | rscImm | tstImm | tstS0Imm | teqImm | teqS0Imm | cmpImm
    | cmpS0Imm | cmnImm | cmnS0Imm | orrImm | movImm | bicImm | mvnImm => exact decodeAs_encodeDp_rotImm ..
  case andShiftImm | eorShiftImm | subShiftImm | rsbShiftImm | addShiftImm | adcShiftImm | sbcShiftImm | rscShiftImm
    | tstShiftImm | tstS0ShiftImm | teqShiftImm | teqS0ShiftImm | cmpShiftImm | cmpS0ShiftImm | cmnShiftImm | cmnS0ShiftImm
    | orrShiftImm | movShiftImm | bicShiftImm | mvnShiftImm => exact decodeAs_encodeDp_shiftImm ..
  case andShiftReg | eorShiftReg | subShiftReg | rsbShiftReg | addShiftReg | adcShiftReg | sbcShiftReg | rscShiftReg
    | tstShiftReg | tstS0ShiftReg | teqShiftReg | teqS0ShiftReg | cmpShiftReg | cmpS0ShiftReg | cmnShiftReg | cmnS0ShiftReg
    | orrShiftReg | movShiftReg | bicShiftReg | mvnShiftReg => exact decodeAs_encodeDp_shiftReg ..
  case ldrImm | strImm | ldrbImm | strbImm =>
    simp (disch := omega) [Instr.category, encode, HasFormat, decodeAs, decodeTransferImm, decodeIndexing,
      Indexing.word, regAt, encodeTransfer, place1, field_place_same, field_place_other, field_ofNat,
      bitAt_place_same, bitAt_place_other, bitAt_literal]
  case ldrReg | strReg | ldrbReg | strbReg =>
    simp (disch := omega) [Instr.category, encode, HasFormat, decodeAs, decodeTransferReg, decodeIndexing,
      Indexing.word, decodeShiftImm, ShiftImm.word, regAt, encodeTransfer, place1, field_place_same,
      field_place_other, field_ofNat, bitAt_place_same, bitAt_place_other, bitAt_literal]
  case b | bl =>
    simp (disch := omega) [Instr.category, encode, HasFormat, decodeAs, decodeBranch, field_place_same,
      field_place_other, field_ofNat, bitAt_place_same, bitAt_place_other, bitAt_literal]
  case mul | mla =>
    simp (disch := omega) [Instr.category, encode, HasFormat, decodeAs, decodeMultiply, regAt, encodeMultiply, place1,
      field_place_same, field_place_other, field_ofNat, bitAt_place_same, bitAt_place_other, bitAt_literal]
  case umull | umlal | smull | smlal =>
    simp (disch := omega) [Instr.category, encode, HasFormat, decodeAs, decodeLongMultiply, regAt, encodeMultiply,
      place1, field_place_same, field_place_other, field_ofNat, bitAt_place_same, bitAt_place_other, bitAt_literal]
  case swp | swpb =>
    simp (disch := omega) [Instr.category, encode, HasFormat, decodeAs, decodeSwap, regAt, encodeSwap,
      field_place_same, field_place_other, field_ofNat, bitAt_place_same, bitAt_place_other, bitAt_literal]
  case strhReg | ldrhReg | ldrsbReg | ldrshReg | hwReservedRegSh2 | hwReservedRegSh3 =>
    simp (disch := omega) [Instr.category, encode, HasFormat, decodeAs, decodeHalfwordReg, decodeIndexing,
      Indexing.word, regAt, encodeTransfer, place1, field_place_same, field_place_other, field_ofNat,
      bitAt_place_same, bitAt_place_other, bitAt_literal]
  case strhImm | ldrhImm | ldrsbImm | ldrshImm | hwReservedImmSh2 | hwReservedImmSh3 =>
    simp (disch := omega) [Instr.category, encode, HasFormat, decodeAs, decodeHalfwordImm, decodeIndexing,
      Indexing.word, regAt, encodeTransfer, place1, field_place_same, field_place_other, field_ofNat,
      bitAt_place_same, bitAt_place_other, bitAt_literal]
  case ldm | stm =>
    simp (disch := omega) [Instr.category, encode, HasFormat, decodeAs, decodeBlock, decodeIndexing, Indexing.word,
      regAt, encodeBlock, place1, field_place_same, field_place_other, field_ofNat, bitAt_place_same,
      bitAt_place_other, bitAt_literal]
  case ldc | stc =>
    simp (disch := omega) [Instr.category, encode, HasFormat, decodeAs, decodeCoprocTransfer, decodeIndexing,
      Indexing.word, regAt, encodeCoprocTransfer, place1, field_place_same, field_place_other, field_ofNat,
      bitAt_place_same, bitAt_place_other, bitAt_literal]
  case mrc | mcr =>
    simp (disch := omega) [Instr.category, encode, HasFormat, decodeAs, decodeCoprocRegister, regAt,
      encodeCoprocRegister, field_place_same, field_place_other, field_ofNat, bitAt_place_same, bitAt_place_other,
      bitAt_literal]
  case bx | mrs | msr | msrFlags =>
    simp (disch := omega) [Instr.category, encode, HasFormat, decodeAs, regAt, place1, field_place_same,
      field_place_other, field_ofNat, bitAt_place_same, bitAt_place_other, bitAt_literal]
  case cdp | undefined | swi =>
    simp (disch := omega) [Instr.category, encode, HasFormat, decodeAs, field_place_same, field_place_other,
      field_ofNat, bitAt_place_same, bitAt_place_other, bitAt_literal]

/-- Settles O1: the category's decoder reads the instruction back, and well-formedness says that `decode` uses that category's
decoder. -/
theorem decodeOfEncode : Obligations.DecodeOfEncode := by
  intro i hi
  obtain ⟨hf, hd⟩ := decodeAs_encode i
  have hc : classifyTree (encode i) = i.category := (wf_decodeAs_iff hf).mp (hd.symm ▸ hi)
  rw [decode_eq_decodeAs, hc, hd]

end Sys2Proof
end

section
/-! Writing what was read: the encoder gives back every word from what a category's decoder reads in it, if the word has
the format of the category (`spec/30_encoding.md` R90 to R105). Both words are compared field by field. -/

namespace Sys2Proof

/-- Two words are the same where they agree on fields that cover all 32 bits. -/
theorem word_eq_of_fields {x y : Word} (fs : List (Nat × Nat)) (h : maskOfFields fs = BitVec.allOnes 32)
    (hf : ∀ f ∈ fs, field x f.1 f.2 = field y f.1 f.2) : x = y := by
  have hm := (and_maskOfFields_eq_iff x y fs).mpr hf
  rwa [h, BitVec.and_allOnes, BitVec.and_allOnes] at hm

/-! ## The data-processing forms -/

theorem encode_instrImm (op : DpOp) (c : Cond) (sf : Bool) (rn rd : Reg) (o : RotImm) :
    encode (op.instrImm c sf rn rd o) = encodeDp true op c sf rn rd o.word := by cases op <;> cases sf <;> rfl

theorem encode_instrShiftImm (op : DpOp) (c : Cond) (sf : Bool) (rn rd : Reg) (o : ShiftImm) :
    encode (op.instrShiftImm c sf rn rd o) = encodeDp false op c sf rn rd o.word := by cases op <;> cases sf <;> rfl

theorem encode_instrShiftReg (op : DpOp) (c : Cond) (sf : Bool) (rn rd : Reg) (o : ShiftReg) :
    encode (op.instrShiftReg c sf rn rd o) = encodeDp false op c sf rn rd o.word := by cases op <;> cases sf <;> rfl

section
variable {w : Word} (h26 : field w 26 2 = 0#2)
include h26

theorem encode_decodeAs_dpImm (h25 : bitAt w 25 = true) :
    encode (decodeAs .dataProcessing w) = w := by
  rw [decodeAs_dpImm h25, encode_instrImm]
  refine word_eq_of_fields [(28, 4), (26, 2), (25, 1), (21, 4), (20, 1), (16, 4), (12, 4), (8, 4),
    (0, 8)] (by decide) ?_
  simp (disch := omega) [encodeDp, decodeRotImm, RotImm.word, opAt, regAt, place1, bitAt_eq_field, field_place_same,
    field_place_other, h26, field_one_eq_one.mpr h25]

theorem encode_decodeAs_dpShiftImm (h25 : bitAt w 25 = false) (h4 : bitAt w 4 = false) :
    encode (decodeAs .dataProcessing w) = w := by
  rw [decodeAs_dpShiftImm h25 h4, encode_instrShiftImm]
  refine word_eq_of_fields [(28, 4), (26, 2), (25, 1), (21, 4), (20, 1), (16, 4), (12, 4), (7, 5), (5, 2), (4, 1),
    (0, 4)] (by decide) ?_
  simp (disch := omega) [encodeDp, decodeShiftImm, ShiftImm.word, opAt, regAt, place1, bitAt_eq_field,
    field_place_same, field_place_other, h26, field_one_eq_zero.mpr h25, field_one_eq_zero.mpr h4]

theorem encode_decodeAs_dpShiftReg (h25 : bitAt w 25 = false) (h4 : bitAt w 4 = true) :
    encode (decodeAs .dataProcessing w) = w := by
  rw [decodeAs_dpShiftReg h25 h4, encode_instrShiftReg]
  refine word_eq_of_fields [(28, 4), (26, 2), (25, 1), (21, 4), (20, 1), (16, 4), (12, 4), (8, 4), (7, 1), (5, 2),
    (4, 1), (0, 4)] (by decide) ?_
  simp (disch := omega) [encodeDp, decodeShiftReg, ShiftReg.word, opAt, regAt, place1, bitAt_eq_field,
    field_place_same, field_place_other, field_ofNat, h26, field_one_eq_zero.mpr h25, field_one_eq_one.mpr h4]

theorem encode_decodeAs_dataProcessing : encode (decodeAs .dataProcessing w) = w := by
  cases h25 : bitAt w 25
  case true => exact encode_decodeAs_dpImm h26 h25
  case false =>
    cases h4 : bitAt w 4
    case false => exact encode_decodeAs_dpShiftImm h26 h25 h4
    case true => exact encode_decodeAs_dpShiftReg h26 h25 h4

end

/-! ## The transfers -/

theorem encode_decodeAs_transferImm {w : Word} (h : HasFormat .singleDataTransfer w) (h25 : bitAt w 25 = false) :
    encode (decodeAs .singleDataTransfer w) = w := by
  obtain ⟨h26, -⟩ := h
  refine word_eq_of_fields [(28, 4), (26, 2), (25, 1), (24, 1), (23, 1), (22, 1), (21, 1), (20, 1), (16, 4),
    (12, 4), (0, 12)] (by decide) ?_
  cases hl : bitAt w 20 <;> cases hb : bitAt w 22 <;>
    simp (disch := omega) [decodeAs, encode, decodeTransferImm, encodeTransfer, regAt, decodeIndexing, Indexing.word,
      place1, bitAt_eq_field, field_place_same, field_place_other, field_ofNat, field_one_eq_zero.mpr,
      field_one_eq_one.mpr, *]

theorem encode_decodeAs_transferReg {w : Word} (h : HasFormat .singleDataTransfer w) (h25 : bitAt w 25 = true) :
    encode (decodeAs .singleDataTransfer w) = w := by
  obtain ⟨h26, hu⟩ := h
  have h4 : bitAt w 4 = false := by simpa [h25] using hu
  refine word_eq_of_fields [(28, 4), (26, 2), (25, 1), (24, 1), (23, 1), (22, 1), (21, 1), (20, 1), (16, 4),
    (12, 4), (7, 5), (5, 2), (4, 1), (0, 4)] (by decide) ?_
  cases hl : bitAt w 20 <;> cases hb : bitAt w 22 <;>
    simp (disch := omega) [decodeAs, encode, decodeTransferReg, encodeTransfer, regAt, decodeShiftImm, ShiftImm.word,
      decodeIndexing, Indexing.word, place1, bitAt_eq_field, field_place_same, field_place_other, field_ofNat,
      field_one_eq_zero.mpr, field_one_eq_one.mpr, *]

theorem halfword_bits {w : Word} (h : field w 5 2 ≠ 0#2) : (bitAt w 6 = false ∧ bitAt w 5 = true) ∨
    (bitAt w 6 = true ∧ bitAt w 5 = false) ∨ (bitAt w 6 = true ∧ bitAt w 5 = true) := by
  rw [Ne, field_5_2_eq_zero] at h
  cases h6 : bitAt w 6 <;> simp_all

theorem encode_decodeAs_halfWordTransferImmediate {w : Word} (h : HasFormat .halfWordTransferImmediate w) :
    encode (decodeAs .halfWordTransferImmediate w) = w := by
  obtain ⟨h26, h25, h7, h4, h5, h22⟩ := h
  refine word_eq_of_fields [(28, 4), (26, 2), (25, 1), (24, 1), (23, 1), (22, 1), (21, 1), (20, 1), (16, 4),
    (12, 4), (8, 4), (7, 1), (6, 1), (5, 1), (4, 1), (0, 4)] (by decide) ?_
  rcases halfword_bits h5 with ⟨h6, h5⟩ | ⟨h6, h5⟩ | ⟨h6, h5⟩ <;> cases hl : bitAt w 20 <;>
    simp (disch := omega) [decodeAs, encode, decodeHalfwordImm, encodeTransfer, regAt, decodeIndexing, Indexing.word,
      place1, bitAt_eq_field, field_place_same, field_place_other, field_ofNat, field_one_eq_zero.mpr,
      field_one_eq_one.mpr, *]

theorem encode_decodeAs_halfWordTransferRegister {w : Word} (h : HasFormat .halfWordTransferRegister w) :
    encode (decodeAs .halfWordTransferRegister w) = w := by
  obtain ⟨h26, h25, h7, h4, h5, h22, h8⟩ := h
  refine word_eq_of_fields [(28, 4), (26, 2), (25, 1), (24, 1), (23, 1), (22, 1), (21, 1), (20, 1), (16, 4),
    (12, 4), (8, 4), (7, 1), (6, 1), (5, 1), (4, 1), (0, 4)] (by decide) ?_
  rcases halfword_bits h5 with ⟨h6, h5⟩ | ⟨h6, h5⟩ | ⟨h6, h5⟩ <;> cases hl : bitAt w 20 <;>
    simp (disch := omega) [decodeAs, encode, decodeHalfwordReg, encodeTransfer, regAt, decodeIndexing, Indexing.word,
      place1, bitAt_eq_field, field_place_same, field_place_other, field_ofNat, field_one_eq_zero.mpr,
      field_one_eq_one.mpr, *]

theorem encode_decodeAs_blockDataTransfer {w : Word} (h : HasFormat .blockDataTransfer w) :
    encode (decodeAs .blockDataTransfer w) = w := by
  obtain ⟨h26, h25⟩ := h
  refine word_eq_of_fields [(28, 4), (26, 2), (25, 1), (24, 1), (23, 1), (22, 1), (21, 1), (20, 1), (16, 4),
    (0, 16)] (by decide) ?_
  cases hl : bitAt w 20 <;>
    simp (disch := omega) [decodeAs, encode, decodeBlock, encodeBlock, regAt, decodeIndexing, Indexing.word, place1,
      bitAt_eq_field, field_place_same, field_place_other, field_ofNat, field_one_eq_zero.mpr, field_one_eq_one.mpr, *]

theorem encode_decodeAs_coprocDataTransfer {w : Word} (h : HasFormat .coprocDataTransfer w) :
    encode (decodeAs .coprocDataTransfer w) = w := by
  obtain ⟨h26, h25⟩ := h
  refine word_eq_of_fields [(28, 4), (26, 2), (25, 1), (24, 1), (23, 1), (22, 1), (21, 1), (20, 1), (16, 4),
    (12, 4), (8, 4), (0, 8)] (by decide) ?_
  cases hl : bitAt w 20 <;>
    simp (disch := omega) [decodeAs, encode, decodeCoprocTransfer, encodeCoprocTransfer, regAt, decodeIndexing,
      Indexing.word, place1, bitAt_eq_field, field_place_same, field_place_other, field_ofNat, field_one_eq_zero.mpr,
      field_one_eq_one.mpr, *]

/-! ## The multiplies and the swap -/

theorem encode_decodeAs_multiply {w : Word} (h : HasFormat .multiply w) :
    encode (decodeAs .multiply w) = w := by
  obtain ⟨h26, h22, h4⟩ := h
  refine word_eq_of_fields [(28, 4), (26, 2), (22, 4), (21, 1), (20, 1), (16, 4), (12, 4), (8, 4), (4, 4),
    (0, 4)] (by decide) ?_
  cases ha : bitAt w 21 <;>
    simp (disch := omega) [decodeAs, encode, decodeMultiply, encodeMultiply, regAt, place1, bitAt_eq_field,
      field_place_same, field_place_other, field_ofNat, field_one_eq_zero.mpr, field_one_eq_one.mpr, *]

theorem encode_decodeAs_longMultiply {w : Word} (h : HasFormat .longMultiply w) :
    encode (decodeAs .longMultiply w) = w := by
  obtain ⟨h26, h23, h4⟩ := h
  refine word_eq_of_fields [(28, 4), (26, 2), (23, 3), (22, 1), (21, 1), (20, 1), (16, 4), (12, 4), (8, 4), (4, 4),
    (0, 4)] (by decide) ?_
  cases hu : bitAt w 22 <;> cases ha : bitAt w 21 <;>
    simp (disch := omega) [decodeAs, encode, decodeLongMultiply, encodeMultiply, regAt, place1, bitAt_eq_field,
      field_place_same, field_place_other, field_ofNat, field_one_eq_zero.mpr, field_one_eq_one.mpr, *]

theorem encode_decodeAs_singleDataSwap {w : Word} (h : HasFormat .singleDataSwap w) :
    encode (decodeAs .singleDataSwap w) = w := by
  obtain ⟨h23, h20, h4⟩ := h
  refine word_eq_of_fields [(28, 4), (23, 5), (22, 1), (20, 2), (16, 4), (12, 4), (4, 8), (0, 4)] (by decide) ?_
  cases hb : bitAt w 22 <;>
    simp (disch := omega) [decodeAs, encode, decodeSwap, encodeSwap, regAt, field_place_same, field_place_other,
      field_ofNat, field_one_eq_zero.mpr, field_one_eq_one.mpr, *]

/-! ## The branches and the status registers -/

theorem encode_decodeAs_branch {w : Word} (h : HasFormat .branch w) :
    encode (decodeAs .branch w) = w := by
  obtain ⟨h26, h25⟩ := h
  refine word_eq_of_fields [(28, 4), (26, 2), (25, 1), (24, 1), (0, 24)] (by decide) ?_
  cases hl : bitAt w 24 <;>
    simp (disch := omega) [decodeAs, encode, decodeBranch, field_place_same, field_place_other, field_ofNat,
      field_one_eq_zero.mpr, field_one_eq_one.mpr, *]

theorem encode_decodeAs_branchExchange {w : Word} (h : HasFormat .branchExchange w) :
    encode (decodeAs .branchExchange w) = w := by
  replace h : field w 4 24 = 0x12FFF1#24 := h
  refine word_eq_of_fields [(28, 4), (4, 24), (0, 4)] (by decide) ?_
  simp (disch := omega) [decodeAs, encode, regAt, field_place_same, field_place_other, field_ofNat, *]

theorem encode_decodeAs_mrs {w : Word} (h : HasFormat .mrs w) :
    encode (decodeAs .mrs w) = w := by
  obtain ⟨h23, h16, h0⟩ := h
  refine word_eq_of_fields [(28, 4), (23, 5), (22, 1), (16, 6), (12, 4), (0, 12)] (by decide) ?_
  simp (disch := omega) [decodeAs, encode, regAt, place1, bitAt_eq_field, field_place_same, field_place_other,
    field_ofNat, *]

theorem encode_decodeAs_msr {w : Word} (h : HasFormat .msr w) :
    encode (decodeAs .msr w) = w := by
  obtain ⟨h23, h4⟩ := h
  refine word_eq_of_fields [(28, 4), (23, 5), (22, 1), (4, 18), (0, 4)] (by decide) ?_
  simp (disch := omega) [decodeAs, encode, regAt, place1, bitAt_eq_field, field_place_same, field_place_other,
    field_ofNat, *]

theorem encode_decodeAs_msrFlags {w : Word} (h : HasFormat .msrFlags w) :
    encode (decodeAs .msrFlags w) = w := by
  obtain ⟨h26, h23, h12⟩ := h
  refine word_eq_of_fields [(28, 4), (26, 2), (25, 1), (23, 2), (22, 1), (12, 10), (0, 12)] (by decide) ?_
  simp (disch := omega) [decodeAs, encode, place1, bitAt_eq_field, field_place_same, field_place_other, field_ofNat, *]

/-! ## The coprocessor operations, SWI and Undefined -/

theorem encode_decodeAs_coprocDataOperation {w : Word} (h : HasFormat .coprocDataOperation w) :
    encode (decodeAs .coprocDataOperation w) = w := by
  obtain ⟨h26, h25, h24, h4⟩ := h
  refine word_eq_of_fields [(28, 4), (26, 2), (25, 1), (24, 1), (20, 4), (16, 4), (12, 4), (8, 4), (5, 3), (4, 1),
    (0, 4)] (by decide) ?_
  simp (disch := omega) [decodeAs, encode, field_place_same, field_place_other, field_ofNat, field_one_eq_zero.mpr,
    field_one_eq_one.mpr, *]

theorem encode_decodeAs_coprocRegisterTransfer {w : Word} (h : HasFormat .coprocRegisterTransfer w) :
    encode (decodeAs .coprocRegisterTransfer w) = w := by
  obtain ⟨h26, h25, h24, h4⟩ := h
  refine word_eq_of_fields [(28, 4), (26, 2), (25, 1), (24, 1), (21, 3), (20, 1), (16, 4), (12, 4), (8, 4), (5, 3),
    (4, 1), (0, 4)] (by decide) ?_
  cases hl : bitAt w 20 <;>
    simp (disch := omega) [decodeAs, encode, decodeCoprocRegister, encodeCoprocRegister, regAt, field_place_same,
      field_place_other, field_ofNat, field_one_eq_zero.mpr, field_one_eq_one.mpr, *]

theorem encode_decodeAs_softwareInterrupt {w : Word} (h : HasFormat .softwareInterrupt w) :
    encode (decodeAs .softwareInterrupt w) = w := by
  obtain ⟨h26, h25, h24⟩ := h
  refine word_eq_of_fields [(28, 4), (26, 2), (25, 1), (24, 1), (0, 24)] (by decide) ?_
  simp (disch := omega) [decodeAs, encode, field_place_same, field_place_other, field_ofNat, field_one_eq_one.mpr, *]

theorem encode_decodeAs_undefined {w : Word} (h : HasFormat .undefined w) :
    encode (decodeAs .undefined w) = w := by
  obtain ⟨h26, h25, h4⟩ := h
  refine word_eq_of_fields [(28, 4), (26, 2), (25, 1), (5, 20), (4, 1), (0, 4)] (by decide) ?_
  simp (disch := omega) [decodeAs, encode, field_place_same, field_place_other, field_ofNat, field_one_eq_one.mpr, *]

/-! ## Every word -/

theorem encode_decodeAs {cat : Category} {w : Word} (h : HasFormat cat w) : encode (decodeAs cat w) = w := by
  cases cat
  case singleDataTransfer =>
    cases h25 : bitAt w 25
    · exact encode_decodeAs_transferImm h h25
    · exact encode_decodeAs_transferReg h h25
  case dataProcessing => exact encode_decodeAs_dataProcessing h
  case branch => exact encode_decodeAs_branch h
  case longMultiply => exact encode_decodeAs_longMultiply h
  case multiply => exact encode_decodeAs_multiply h
  case singleDataSwap => exact encode_decodeAs_singleDataSwap h
  case halfWordTransferRegister => exact encode_decodeAs_halfWordTransferRegister h
  case halfWordTransferImmediate => exact encode_decodeAs_halfWordTransferImmediate h
  case blockDataTransfer => exact encode_decodeAs_blockDataTransfer h
  case branchExchange => exact encode_decodeAs_branchExchange h
  case mrs => exact encode_decodeAs_mrs h
  case msr => exact encode_decodeAs_msr h
  case msrFlags => exact encode_decodeAs_msrFlags h
  case coprocDataTransfer => exact encode_decodeAs_coprocDataTransfer h
  case coprocDataOperation => exact encode_decodeAs_coprocDataOperation h
  case coprocRegisterTransfer => exact encode_decodeAs_coprocRegisterTransfer h
  case softwareInterrupt => exact encode_decodeAs_softwareInterrupt h
  case undefined => exact encode_decodeAs_undefined h

/-- Settles O2: a word has the format of its own category. -/
theorem encodeOfDecode : Obligations.EncodeOfDecode := by
  intro w
  have hf := hasFormat_classifyTree w
  exact ⟨(wf_decodeAs_iff hf).mpr rfl, encode_decodeAs hf⟩

end Sys2Proof
end

section
/-! The classifier's table (`spec/30_encoding.md` R84, R86 to R88): the priority order is a stable sort by specificity, the
table is total, and entries of equal specificity that meet have one category. -/

namespace Sys2Proof

/-- An entry looks at no bit outside its mask. -/
theorem TableEntry.matches_congr {e : TableEntry} {m x y : Word} (hm : e.mask &&& m = e.mask) (h : x &&& m = y &&& m) :
    e.matches x = e.matches y := by
  rw [TableEntry.matches, TableEntry.matches, ← hm, BitVec.and_comm e.mask, ← BitVec.and_assoc, h, BitVec.and_assoc]

/-- The entries on `w[27:24]` and `w[4]` alone match every word. -/
theorem exists_matches (w : Word) : ∃ e ∈ priorityTable, e.matches w = true := by
  have cover : ∀ (a : BitVec 4) (b : BitVec 1), ∃ e ∈ priorityTable,
      e.mask &&& maskOfFields [(24, 4), (4, 1)] = e.mask ∧ e.matches (place 24 a ||| place 4 b) = true := by decide
  obtain ⟨e, he, hm, hp⟩ := cover (field w 24 4) (field w 4 1)
  refine ⟨e, he, (TableEntry.matches_congr hm ?_).trans hp⟩
  rw [and_maskOfFields_eq_iff]
  simp (disch := omega) [field_place_same, field_place_other]

/-- The patterns of two entries that match one word agree under both masks. -/
theorem TableEntry.patterns_agree {e f : TableEntry} {w : Word} (he : e.matches w = true) (hf : f.matches w = true) :
    e.pattern &&& f.mask = f.pattern &&& e.mask := by
  rw [TableEntry.matches, beq_iff_eq] at he hf
  rw [← he, ← hf, BitVec.and_assoc, BitVec.and_assoc, BitVec.and_comm e.mask]

theorem category_eq_of_patterns_agree : ∀ e ∈ declarationTable, ∀ f ∈ declarationTable,
    e.pattern &&& f.mask = f.pattern &&& e.mask → e.popCount = f.popCount → e.category = f.category := by decide

theorem priorityTable_pairwise : priorityTable.Pairwise (fun e f => f.popCount ≤ e.popCount) := by decide

theorem filter_popCount_priorityTable (n : Nat) :
    priorityTable.filter (fun e => e.popCount == n) = declarationTable.filter (fun e => e.popCount == n) := by
  have stable : ∀ m ∈ declarationTable.map TableEntry.popCount,
      priorityTable.filter (fun e => e.popCount == m) = declarationTable.filter (fun e => e.popCount == m) := by decide
  have same : ∀ e ∈ priorityTable, e ∈ declarationTable := by decide
  by_cases hn : n ∈ declarationTable.map TableEntry.popCount
  · exact stable n hn
  · have none : ∀ e ∈ declarationTable, ¬(e.popCount == n) = true := fun e he hp =>
      hn (List.mem_map.mpr ⟨e, he, beq_iff_eq.mp hp⟩)
    rw [List.filter_eq_nil_iff.mpr none, List.filter_eq_nil_iff.mpr fun e he => none e (same e he)]

/-- Settles O4: two entries that one word matches agree where both masks are set, which no two entries of one specificity and
two categories do. -/
theorem classifierTable : Obligations.ClassifierTable :=
  ⟨filter_popCount_priorityTable, priorityTable_pairwise, exists_matches, fun _ e he f hf hme hmf =>
    category_eq_of_patterns_agree e he f hf (TableEntry.patterns_agree hme hmf)⟩

end Sys2Proof
end

section
/-! The positions of the fields in the executed formats (`spec/30_encoding.md` R90 to R100). -/

namespace Sys2Proof

/-- Settles O6: each field of the encoded word is the operand placed there, every other placed field lying beside it. -/
theorem executedFormats : Obligations.ExecutedFormats := by
  refine ⟨?_, ?_, ?_, ?_, ?_, ?_, ?_⟩
  · intro c sf rn rd o
    simp (disch := omega) [encode, encodeDp, RotImm.word, place1, field_place_same, field_place_other,
      bitAt_place_same, bitAt_place_other]
  · intro c sf rn rd o
    simp (disch := omega) [encode, encodeDp, ShiftImm.word, place1, field_place_same, field_place_other,
      bitAt_place_same, bitAt_place_other]
  · intro c sf rn rd o
    simp (disch := omega) [encode, encodeDp, ShiftReg.word, place1, field_place_same, field_place_other, field_ofNat,
      bitAt_place_same, bitAt_place_other, bitAt_literal]
  · intro c ix rn rd imm12
    simp (disch := omega) [encode, encodeTransfer, Indexing.word, place1, field_place_same, field_place_other,
      field_ofNat, bitAt_place_same, bitAt_place_other, bitAt_literal]
  · intro c ix rn rd o
    simp (disch := omega) [encode, encodeTransfer, Indexing.word, ShiftImm.word, place1, field_place_same,
      field_place_other, field_ofNat, bitAt_place_same, bitAt_place_other, bitAt_literal]
  · intro c imm24
    simp (disch := omega) [encode, field_place_same, field_place_other, field_ofNat, bitAt_place_same,
      bitAt_place_other, bitAt_literal]
  · intro c sf rdHi rdLo rs rm
    simp (disch := omega) [encode, encodeMultiply, place1, field_place_same, field_place_other, field_ofNat,
      bitAt_place_same, bitAt_place_other, bitAt_literal]

end Sys2Proof
end

section
/-! The decode gaps of the halfword forms (`spec/46_unimplemented.md` R280, R287 to R291). -/

namespace Sys2Proof.Machine
open Claims

/-- An instruction whose effect is the decode gap raises it where its condition passes, and changes nothing else (R280). -/
theorem gaps_of_exec {c : Cond} {cat : Category} {i : Instr} {s : State} (hc : condPass c s.flags = true)
    (he : exec i s = guarded c (decodeGap cat i s) s) : Gaps i cat s :=
  ⟨_, he.trans (guarded_pass hc _), rfl, fun _ _ => rfl, rfl, fun _ => rfl, rfl⟩

theorem encodeHalfwordReg_and_mask {fixed : Word} (hf : fixed &&& 0x0E500FF0 = fixed) (c : Cond) (ix : Indexing)
    (rn rd rm : Reg) : encodeTransfer fixed c ix rn rd (place 0 rm.bits) &&& 0x0E500FF0 = fixed := by
  simpa (disch := decide) [encodeTransfer, Indexing.word, place1, or_and_mask, place_and_mask] using hf

theorem encodeHalfwordImm_and_mask {fixed : Word} (hf : fixed &&& 0x0E5000F0 = fixed) (c : Cond) (ix : Indexing)
    (rn rd : Reg) (hi lo : BitVec 4) :
    encodeTransfer fixed c ix rn rd (place 8 hi ||| place 0 lo) &&& 0x0E5000F0 = fixed := by
  simpa (disch := decide) [encodeTransfer, Indexing.word, place1, or_and_mask, place_and_mask] using hf

/-- Settles O47: the twelve forms are two formats with their fixed bits, and each one's effect is the decode gap. -/
theorem gapsOfHalfword : Obligations.GapsOfHalfword := by
  intro c ix rn rd s hc
  have reg (fixed : Word) (hf : fixed &&& 0x0E500FF0 = fixed) {i : Instr} {rm : Reg}
      (hw : encode i = encodeTransfer fixed c ix rn rd (place 0 rm.bits))
      (he : exec i s = guarded c (decodeGap .halfWordTransferRegister i s) s) (_ : i.wf = true) :
      Matches i 0x0E500FF0 fixed ∧ Gaps i .halfWordTransferRegister s :=
    ⟨by rw [Matches, hw, encodeHalfwordReg_and_mask hf], gaps_of_exec hc he⟩
  have imm (fixed : Word) (hf : fixed &&& 0x0E5000F0 = fixed) {i : Instr} {hi lo : BitVec 4}
      (hw : encode i = encodeTransfer fixed c ix rn rd (place 8 hi ||| place 0 lo))
      (he : exec i s = guarded c (decodeGap .halfWordTransferImmediate i s) s) (_ : i.wf = true) :
      Matches i 0x0E5000F0 fixed ∧ Gaps i .halfWordTransferImmediate s :=
    ⟨by rw [Matches, hw, encodeHalfwordImm_and_mask hf], gaps_of_exec hc he⟩
  exact ⟨fun _ => ⟨reg _ rfl rfl rfl, reg _ rfl rfl rfl, reg _ rfl rfl rfl, reg _ rfl rfl rfl, reg _ rfl rfl rfl,
      reg _ rfl rfl rfl⟩,
    fun _ _ => ⟨imm _ rfl rfl rfl, imm _ rfl rfl rfl, imm _ rfl rfl rfl, imm _ rfl rfl rfl, imm _ rfl rfl rfl,
      imm _ rfl rfl rfl⟩⟩

end Sys2Proof.Machine
end

section
/-! The condition codes (`spec/40_condition.md` R131, R132). The adder's C, and its N and V together, are read as the exact
unsigned and signed sums (`spec/42_data_processing.md` R173); what the codes say after CMP follows. -/

namespace Sys2Proof.Machine
open Claims

/-! ## The codes and their negations -/

theorem condPass_hi_iff {f : Flags} : condPass .hi f = true ↔ f.c = true ∧ f.z = false := by simp [condPass]

theorem condPass_ge_iff {f : Flags} : condPass .ge f = true ↔ f.n = f.v := by simp [condPass]

theorem condPass_gt_iff {f : Flags} : condPass .gt f = true ↔ f.z = false ∧ f.n = f.v := by simp [condPass]

theorem condPass_ls (f : Flags) : condPass .ls f = !condPass .hi f := by simp [condPass]

theorem condPass_le (f : Flags) : condPass .le f = !condPass .gt f := by simp [condPass, bne]

/-- Settles O7: the expression of each code is read off `condPass`. -/
theorem conditionCodes : Obligations.ConditionCodes := fun f =>
  have not_iff (b : Bool) : (!b) = true ↔ b = false := by simp
  ⟨.rfl, not_iff _, .rfl, not_iff _, .rfl, not_iff _, .rfl, not_iff _, condPass_hi_iff,
    show condPass .ls f = true ↔ f.c = false ∨ f.z = true by simp [condPass], condPass_ge_iff, bne_iff_ne, condPass_gt_iff,
    show condPass .le f = true ↔ f.z = true ∨ f.n ≠ f.v by simp [condPass], rfl, rfl⟩

/-- An even code and the odd code after it are a predicate and its negation. -/
theorem condPass_xor_one {code : BitVec 4} (h : code.getLsbD 0 = false) (f : Flags) :
    condPass (Cond.ofBits (code ^^^ 1)) f = !condPass (Cond.ofBits code) f := by
  have even : ∀ code : BitVec 4, code.getLsbD 0 = false → code = 0 ∨ code = 2 ∨ code = 4 ∨ code = 6 ∨ code = 8 ∨ code = 10 ∨
      code = 12 ∨ code = 14 := by decide
  obtain rfl | rfl | rfl | rfl | rfl | rfl | rfl | rfl := even code h
  exacts [rfl, rfl, rfl, rfl, condPass_ls f, rfl, condPass_le f, rfl]

/-- Of `n` pairs of a predicate and its negation, `n` hold. -/
theorem length_filter_range_pairs {p : Nat → Bool} : ∀ {n : Nat}, (∀ k < n, p (2 * k + 1) = !p (2 * k)) →
    ((List.range (2 * n)).filter p).length = n
  | 0, _ => rfl
  | n + 1, h => by
    have ih := length_filter_range_pairs fun k hk => h k (Nat.lt_succ_of_lt hk)
    rw [Nat.mul_succ, List.range_succ, List.range_succ]
    cases hp : p (2 * n) <;> simp [h n (Nat.lt_succ_self n), hp, ih]

theorem length_filter_condPass (f : Flags) :
    ((List.range 16).filter fun n => condPass (Cond.ofBits (BitVec.ofNat 4 n)) f).length = 8 := by
  have code : ∀ k < 8, (BitVec.ofNat 4 (2 * k)).getLsbD 0 = false ∧
      BitVec.ofNat 4 (2 * k + 1) = BitVec.ofNat 4 (2 * k) ^^^ 1 := by decide
  refine length_filter_range_pairs (n := 8) fun k hk => ?_
  rw [(code k hk).2, condPass_xor_one (code k hk).1]

/-! ## The adder on unsigned and on signed operands (R173) -/

/-- The signed value of R13 is the library's. -/
theorem signed_eq_toInt (v : Word) : signed v = v.toInt := by
  rw [signed, BitVec.toInt_eq_msb_cond, ← BitVec.msb_eq_getLsbD_last]
  cases v.msb <;> simp

theorem signed_inj {a b : Word} : signed a = signed b ↔ a = b := by
  rw [signed_eq_toInt, signed_eq_toInt, BitVec.toInt_inj]

theorem msb_eq_signed (v : Word) : v.msb = decide (signed v < 0) := by rw [signed_eq_toInt, BitVec.msb_eq_toInt]

theorem signed_bounds (v : Word) : -2 ^ 31 ≤ signed v ∧ signed v < 2 ^ 31 := by
  rw [signed_eq_toInt]
  exact ⟨BitVec.le_toInt v, BitVec.toInt_lt⟩

theorem signed_not (v : Word) : signed (~~~v) = -signed v - 1 := by
  have hv := v.isLt
  rw [signed, signed, BitVec.toNat_not, BitVec.getLsbD_not]
  cases v.getLsbD 31 <;> simp <;> omega

theorem addWithCarry_cout_iff {x y : Word} {cin : Bool} :
    (addWithCarry x y cin).cout = true ↔ 2 ^ 32 ≤ x.toNat + y.toNat + cin.toNat := by
  have hx := x.isLt
  have hy := y.isLt
  have hc : cin.toNat ≤ 1 := Bool.toNat_le cin
  rw [addWithCarry_cout, Nat.testBit_eq_decide_div_mod_eq, decide_eq_true_iff]
  omega

theorem signed_addWithCarry_res (x y : Word) (cin : Bool) :
    signed (addWithCarry x y cin).res = (signed x + signed y + cin.toNat).bmod (2 ^ 32) := by
  rw [addWithCarry_res, signed_eq_toInt, BitVec.toInt_ofNat', signed_eq_toInt x, signed_eq_toInt y,
    BitVec.toInt_eq_toNat_bmod x, BitVec.toInt_eq_toNat_bmod y, Int.add_right_comm, Int.add_bmod_bmod, Int.add_assoc,
    Int.bmod_add_bmod, Int.natCast_add, Int.natCast_add, Int.add_right_comm, Int.add_assoc]

/-- V: the exact signed sum is no 32-bit signed value. -/
theorem addWithCarry_ovf_iff {x y : Word} {cin : Bool} : (addWithCarry x y cin).ovf = true ↔
    signed x + signed y + cin.toNat < -2 ^ 31 ∨ 2 ^ 31 ≤ signed x + signed y + cin.toNat := by
  have hx := signed_bounds x
  have hy := signed_bounds y
  have hc : cin.toNat ≤ 1 := Bool.toNat_le cin
  have hr := signed_addWithCarry_res x y cin
  rw [Int.bmod_def] at hr
  simp only [addWithCarry_ovf, msb_eq_signed, Bool.and_eq_true, beq_iff_eq, bne_iff_ne, decide_eq_decide, ne_eq]
  omega

/-- N is the sign of the 32-bit result, and V marks where the exact signed sum has the other sign. -/
theorem arithFlags_n_eq_v_iff {x y : Word} {cin : Bool} :
    (arithFlags (addWithCarry x y cin)).n = (arithFlags (addWithCarry x y cin)).v ↔ 0 ≤ signed x + signed y + cin.toNat := by
  have hx := signed_bounds x
  have hy := signed_bounds y
  have hc : cin.toNat ≤ 1 := Bool.toNat_le cin
  have hr := signed_addWithCarry_res x y cin
  rw [Int.bmod_def] at hr
  rw [arithFlags, Bool.eq_iff_iff, addWithCarry_ovf_iff, msb_eq_signed, decide_eq_true_iff]
  omega

/-- The subtraction of CMP: `x + ~y + 1` is `x - y`. -/
theorem addWithCarry_not_res (x y : Word) : (addWithCarry x (~~~y) true).res = x - y := by
  rw [addWithCarry_res]
  bv_omega

/-! ## The codes after CMP (R132, R184) -/

/-- R132: C is the unsigned comparison, N and V together are the signed one, Z is equality; HI and GT are the strict ones. -/
theorem condPass_compare (a b : Word) {f : Flags} (hf : f = arithFlags (addWithCarry a (~~~b) true)) :
    (condPass .cs f = true ↔ b.toNat ≤ a.toNat) ∧ (condPass .hi f = true ↔ b.toNat < a.toNat) ∧
    (condPass .ge f = true ↔ signed b ≤ signed a) ∧ (condPass .gt f = true ↔ signed b < signed a) ∧
    (condPass .eq f = true ↔ a = b) := by
  have hc : f.c = true ↔ b.toNat ≤ a.toNat := by
    rw [hf, arithFlags, addWithCarry_cout_iff, BitVec.toNat_not, Bool.toNat_true]
    omega
  have hz : f.z = true ↔ a = b := by
    rw [hf, arithFlags, addWithCarry_not_res, beq_iff_eq, sub_eq_zero]
  have hn : f.n = f.v ↔ signed b ≤ signed a := by
    rw [hf, arithFlags_n_eq_v_iff, signed_not, Bool.toNat_true]
    omega
  have hnz : f.z = false ↔ a ≠ b := by rw [← Bool.not_eq_true, hz]
  refine ⟨hc, ?_, condPass_ge_iff.trans hn, ?_, hz⟩
  · rw [condPass_hi_iff, hc, hnz, ne_comm, BitVec.toNat_ne, Nat.lt_iff_le_and_ne]
  · rw [condPass_gt_iff, hn, hnz, ne_eq, ← signed_inj]
    omega

theorem flags_cmpOp {rd : Reg} (h : rd ≠ 15) (rn : Reg) (o : Bool × Word) (s : State) :
    (cmpOp true rn rd o s).flags = arithFlags (addWithCarry (s.reg rn) (~~~o.2) true) := by
  simp [cmpOp, h]

/-- Settles O8: a pair of codes is a predicate and its negation, so one of each of the eight pairs passes; and the flags of CMP
are those of `a + ~b + 1`. -/
theorem conditionPairs : Obligations.ConditionPairs :=
  ⟨fun _ f h => condPass_xor_one h f, length_filter_condPass, fun rn rd s hrd =>
    have compare (o : Bool × Word) := condPass_compare (s.reg rn) o.2 (flags_cmpOp hrd rn o s)
    ⟨fun o => ⟨_, exec_instrImm .cmp .al true rn rd o s, compare _⟩,
      fun o => ⟨_, exec_instrShiftImm .cmp .al true rn rd o s, compare _⟩,
      fun o => ⟨_, exec_instrShiftReg .cmp .al true rn rd o s, compare _⟩⟩⟩

end Sys2Proof.Machine
end

section
/-! The barrel shifter (`spec/41_shifter.md` R141 to R148) as arithmetic on the value, and the operand forms that use it (R152,
R153, R221). -/

namespace Sys2Proof.Machine
open Claims

/-! ## LSL (R141, R142) -/

theorem shift_lsl_of_le {n : Nat} (h0 : 1 ≤ n) (h : n ≤ 31) (cin : Bool) (v : Word) :
    shift cin .lsl n v = (v.getLsbD (32 - n), v <<< n) := by
  rw [shift, shiftLsl, if_neg (by omega), if_pos h]

theorem shift_lsl_of_gt {n : Nat} (h : 33 ≤ n) (cin : Bool) (v : Word) : shift cin .lsl n v = (false, 0) := by
  rw [shift, shiftLsl, if_neg (by omega), if_neg (by omega), if_neg (by omega)]

theorem shiftLeft_eq_ofNat_mul (v : Word) (n : Nat) : v <<< n = BitVec.ofNat 32 (v.toNat * 2 ^ n) := by
  rw [← Nat.shiftLeft_eq]
  rfl

/-- R142: the carry-out is the bit that the exact product has just above the word, also where the width is exceeded. -/
theorem carry_shift_lsl {n : Nat} (h0 : 1 ≤ n) (cin : Bool) (v : Word) :
    (shift cin .lsl n v).1 = (v.toNat * 2 ^ n).testBit 32 := by
  rw [Nat.testBit_mul_two_pow]
  obtain h | rfl | h : n ≤ 31 ∨ n = 32 ∨ 33 ≤ n := by omega
  · rw [shift_lsl_of_le h0 h, decide_eq_true (by omega), Bool.true_and]
    rfl
  · rfl
  · rw [shift_lsl_of_gt h, decide_eq_false (by omega), Bool.false_and]

/-- Settles O10: in the range 1 to 31 the shifted word is the product modulo `2^32`. -/
theorem shiftLeft : Obligations.ShiftLeft := fun cin v =>
  ⟨rfl, fun n h0 h => shiftLeft_eq_ofNat_mul v n ▸ shift_lsl_of_le h0 h cin v, rfl,
    fun _ h _ => shift_lsl_of_gt h cin v, fun _ h0 _ => carry_shift_lsl h0 cin v⟩

/-! ## LSR (R143, R144) -/

theorem shift_lsr_of_le {n : Nat} (h0 : 1 ≤ n) (h : n ≤ 31) (cin : Bool) (v : Word) :
    shift cin .lsr n v = (v.getLsbD (n - 1), v >>> n) := by
  rw [shift, shiftLsr, if_neg (by omega), if_pos h]

theorem shift_lsr_of_gt {n : Nat} (h : 33 ≤ n) (cin : Bool) (v : Word) : shift cin .lsr n v = (false, 0) := by
  rw [shift, shiftLsr, if_neg (by omega), if_neg (by omega)]

theorem ushiftRight_eq_ofNat_div (v : Word) (n : Nat) : v >>> n = BitVec.ofNat 32 (v.toNat / 2 ^ n) := by
  rw [← Nat.shiftRight_eq_div_pow, ← BitVec.toNat_ushiftRight, BitVec.ofNat_toNat, BitVec.setWidth_eq]

/-- Settles O11: in the range 1 to 31 the shifted word is the quotient. -/
theorem shiftRight : Obligations.ShiftRight := fun cin v =>
  ⟨rfl, fun n h0 h => ushiftRight_eq_ofNat_div v n ▸ shift_lsr_of_le h0 h cin v, rfl, fun _ h _ => shift_lsr_of_gt h cin v⟩

/-! ## ASR (R145, R146) -/

theorem shift_asr_of_le {n : Nat} (h0 : 1 ≤ n) (h : n ≤ 31) (cin : Bool) (v : Word) :
    shift cin .asr n v = (v.getLsbD (n - 1), v.sshiftRight n) := by
  rw [shift, shiftAsr, if_neg (by omega)]

theorem shift_asr_of_ge {n : Nat} (h : n = 0 ∨ 32 ≤ n) (cin : Bool) (v : Word) :
    shift cin .asr n v = (v.getLsbD 31, if v.getLsbD 31 then 0xFFFFFFFF else 0) := by
  rw [shift, shiftAsr, if_pos h, signFill, BitVec.msb_eq_getLsbD_last]

/-- The sign bits of R146: where the sign is set, the constant's ones are its upper `n` bits. -/
theorem getLsbD_signBits (sign : Bool) (n : Nat) {i : Nat} (hi : i < 32) :
    (if sign then BitVec.ofNat 32 (2 ^ 32 - 2 ^ (32 - n)) else 0).getLsbD i = (sign && !decide (n + i < 32)) := by
  cases sign with
  | false => exact BitVec.getLsbD_zero
  | true =>
    have hle : 2 ^ (32 - n) ≤ 2 ^ 32 := Nat.pow_le_pow_right (by decide) (Nat.sub_le 32 n)
    have hpos : 0 < 2 ^ (32 - n) := Nat.two_pow_pos _
    have hbit := Nat.testBit_two_pow_sub_succ (x := 2 ^ (32 - n) - 1) (n := 32) (by omega) i
    rw [Nat.sub_add_cancel hpos, Nat.testBit_two_pow_sub_one] at hbit
    rw [if_pos rfl, BitVec.getLsbD_ofNat, hbit, decide_eq_true hi, Bool.true_and, Bool.true_and, Bool.true_and,
      decide_eq_decide.mpr (by omega : i < 32 - n ↔ n + i < 32)]

/-- R146, first form: the bits shifted in are copies of the sign. -/
theorem sshiftRight_eq_or (v : Word) (n : Nat) :
    v.sshiftRight n = (v >>> n) ||| (if v.getLsbD 31 then BitVec.ofNat 32 (2 ^ 32 - 2 ^ (32 - n)) else 0) := by
  refine BitVec.eq_of_getLsbD_eq fun i hi => ?_
  rw [BitVec.getLsbD_sshiftRight, BitVec.getLsbD_or, BitVec.getLsbD_ushiftRight, getLsbD_signBits _ n hi,
    BitVec.msb_eq_getLsbD_last]
  by_cases h : n + i < 32
  · simp [h, hi.not_ge]
  · simp [h, hi.not_ge, BitVec.getLsbD_of_ge v (n + i) (by omega)]

/-- R146, second form: the signed value divided by `2^n`, rounded toward minus infinity. -/
theorem sshiftRight_eq_ofInt_div (v : Word) (n : Nat) : v.sshiftRight n = BitVec.ofInt 32 (signed v / 2 ^ n) := by
  rw [BitVec.sshiftRight, Int.shiftRight_eq_div_pow, signed_eq_toInt]
  norm_cast

/-- Settles O12: the two forms of the result agree with the arithmetic shift. -/
theorem shiftArithmetic : Obligations.ShiftArithmetic := fun cin v =>
  ⟨shift_asr_of_ge (.inl rfl) cin v,
    fun n h0 h => by
      rw [shift_asr_of_le h0 h]
      exact ⟨rfl, sshiftRight_eq_or v n, sshiftRight_eq_ofInt_div v n⟩,
    fun _ h _ => shift_asr_of_ge (.inr h) cin v⟩

/-! ## ROR and RRX (R147, R148) -/

theorem shift_ror_of_pos {n : Nat} (h0 : 1 ≤ n) (cin : Bool) (v : Word) :
    shift cin .ror n v = ((ror32 v (n % 32)).getLsbD 31, ror32 v (n % 32)) := by
  rw [shift, shiftRor, if_neg (by omega)]

/-- R12 without its case 0: there a shift by the width leaves nothing. -/
theorem ror32_eq_or (v : Word) (k : Nat) : ror32 v k = (v >>> k) ||| (v <<< (32 - k)) := by
  rw [ror32]
  split
  next h => simp [h]
  next => rfl

/-- The rotation of R12 is the library's. -/
theorem ror32_mod_eq_rotateRight (v : Word) (n : Nat) : ror32 v (n % 32) = v.rotateRight n := ror32_eq_or v (n % 32)

/-- R147: bit `i` comes from `n` places above, around the word. -/
theorem getLsbD_ror32_mod (v : Word) (n : Nat) {i : Nat} (hi : i < 32) :
    (ror32 v (n % 32)).getLsbD i = v.getLsbD ((i + n) % 32) := by
  rw [ror32_mod_eq_rotateRight, BitVec.getLsbD_rotateRight, Bool.cond_decide, decide_eq_true hi, Bool.true_and]
  split
  all_goals exact congrArg v.getLsbD (by omega)

/-- R12: the two parts of the rotated word do not overlap, so their disjunction is their sum. -/
theorem ror32_eq_ofNat_add (v : Word) (k : Nat) :
    ror32 v k = BitVec.ofNat 32 (v.toNat / 2 ^ k + v.toNat * 2 ^ (32 - k) % 2 ^ 32) := by
  have hdisj : v >>> k &&& v <<< (32 - k) = 0#32 := by
    refine BitVec.eq_of_getLsbD_eq fun i hi => ?_
    rw [BitVec.getLsbD_and, BitVec.getLsbD_ushiftRight, BitVec.getLsbD_shiftLeft, BitVec.getLsbD_zero]
    by_cases h : i < 32 - k
    · simp [h]
    · simp [BitVec.getLsbD_of_ge v (k + i) (by omega)]
  rw [ror32_eq_or, ← BitVec.add_eq_or_of_and_eq_zero _ _ hdisj]
  refine BitVec.eq_of_toNat_eq ?_
  rw [BitVec.toNat_add, BitVec.toNat_ushiftRight, BitVec.toNat_shiftLeft, Nat.shiftRight_eq_div_pow, Nat.shiftLeft_eq,
    BitVec.toNat_ofNat]

/-- Settles O13: the bits and the carry-out are those of the rotation by the amount modulo 32. -/
theorem rotateRight : Obligations.RotateRight := fun cin v => by
  refine ⟨fun n h0 _ => ?_, fun k _ => ror32_eq_ofNat_add v k, rfl, ?_⟩
  · rw [shift_ror_of_pos h0]
    refine ⟨rfl, fun i hi => getLsbD_ror32_mod v n hi, rfl, ?_, fun hn => ?_⟩
    · exact (getLsbD_ror32_mod v n (by decide)).trans (congrArg v.getLsbD (by omega))
    · rw [hn]
      rfl
  · cases cin <;> rfl

/-! ## The operand forms (R152, R153, R221) -/

/-- R152: with a rotation the immediate operand is the ROR rule R147 on the amount `2 * rot`. -/
theorem immOperand_eq_shift {o : RotImm} (h : o.rot ≠ 0) (s : State) :
    immOperand o s = shift s.flags.c .ror (2 * o.rot.toNat) (o.imm8.setWidth 32) := by
  have hrot := o.rot.isLt
  have hpos : o.rot.toNat ≠ 0 := fun h0 => h (BitVec.eq_of_toNat_eq h0)
  rw [shift_ror_of_pos (by omega), Nat.mod_eq_of_lt (by omega), immOperand, if_neg h]

/-- Settles O14: each form is its rule's shift; the low byte of `x[Rs]` is its remainder by 256. -/
theorem operandForms : Obligations.OperandForms := by
  refine ⟨fun _ _ => rfl, fun o s h => ?_, fun _ => ⟨rfl, rfl, rfl, rfl⟩, fun _ _ => rfl, fun o s => ?_, fun imm12 => ?_,
    fun _ _ => rfl⟩
  · refine ⟨?_, ?_, immOperand_eq_shift h s⟩
    all_goals rw [immOperand, if_neg h]
  · rw [shiftRegOperand, BitVec.extractLsb'_toNat, Nat.shiftRight_zero]
  · have himm : (immOffset imm12).toNat = imm12.toNat := BitVec.toNat_setWidth_of_le (by decide)
    exact ⟨himm, himm ▸ Nat.le_of_lt_succ imm12.isLt⟩

end Sys2Proof.Machine
end

section
/-! The data-processing instructions (`spec/42_data_processing.md` R170 to R193). The three operand forms of an opcode do one
operation under one condition, so each claim about an opcode is a claim about its operation on any operand 2. -/

namespace Sys2Proof.Machine
open Claims

/-! ## The three forms of an opcode (R90, R153) -/

theorem hasOpcode_instrImm (op : DpOp) (c : Cond) (sf : Bool) (rn rd : Reg) (o : RotImm) :
    HasOpcode (op.instrImm c sf rn rd o) op.bits := by
  rw [HasOpcode, encode_instrImm]
  simp (disch := omega) [encodeDp, RotImm.word, place1, field_place_same, field_place_other]

theorem hasOpcode_instrShiftImm (op : DpOp) (c : Cond) (sf : Bool) (rn rd : Reg) (o : ShiftImm) :
    HasOpcode (op.instrShiftImm c sf rn rd o) op.bits := by
  rw [HasOpcode, encode_instrShiftImm]
  simp (disch := omega) [encodeDp, ShiftImm.word, place1, field_place_same, field_place_other]

theorem hasOpcode_instrShiftReg (op : DpOp) (c : Cond) (sf : Bool) (rn rd : Reg) (o : ShiftReg) :
    HasOpcode (op.instrShiftReg c sf rn rd o) op.bits := by
  rw [HasOpcode, encode_instrShiftReg]
  simp (disch := omega) [encodeDp, ShiftReg.word, place1, field_place_same, field_place_other, field_ofNat]

section
variable (op : DpOp) (sf : Bool) (rn rd : Reg) {c : Cond} {s : State} (hc : condPass c s.flags = true)
  {P : Bool → Word → State → Prop} (hop : ∀ o, P o.1 o.2 (dpOp op sf rn rd o s))
include hc hop

/-- Where the condition passes, each form of an opcode completes with the opcode's operation on its own operand 2. -/
theorem eachForm_next : EachForm (op.instrImm c sf rn rd) (op.instrShiftImm c sf rn rd) (op.instrShiftReg c sf rn rd) s
    fun i sc op2 => Next i s (P sc op2) :=
  ⟨fun o => ⟨_, (exec_instrImm op c sf rn rd o s).trans (guarded_pass hc _), hop _⟩,
    fun o => ⟨_, (exec_instrShiftImm op c sf rn rd o s).trans (guarded_pass hc _), hop _⟩,
    fun o => ⟨_, (exec_instrShiftReg op c sf rn rd o s).trans (guarded_pass hc _), hop _⟩⟩

/-- Each form has the opcode in its word, too. -/
theorem eachForm_hasOpcode_next :
    EachForm (op.instrImm c sf rn rd) (op.instrShiftImm c sf rn rd) (op.instrShiftReg c sf rn rd) s
      fun i sc op2 => HasOpcode i op.bits ∧ Next i s (P sc op2) :=
  have ⟨imm, shiftImm, shiftReg⟩ := eachForm_next op sf rn rd hc hop
  ⟨fun o => ⟨hasOpcode_instrImm .., imm o⟩, fun o => ⟨hasOpcode_instrShiftImm .., shiftImm o⟩,
    fun o => ⟨hasOpcode_instrShiftReg .., shiftReg o⟩⟩

end

/-! ## Where a result lands (R170) -/

/-- `Rd` written after the flags. -/
theorem lands_setReg {s t : State} {f : Flags} (h : OnlyFlags s f t) (rd : Reg) (res : Word) :
    Lands s rd res f (t.setReg rd res) :=
  have ⟨hflags, hregs, hmem, hlatch⟩ := h
  ⟨State.reg_setReg_same .., hflags, fun q hq =>
    (State.reg_setReg_ne t res (mt List.mem_singleton.mpr hq)).trans (hregs q List.not_mem_nil), hmem, hlatch⟩

theorem onlyFlags_setFlags (s : State) (f : Flags) : OnlyFlags s f (s.setFlags f) :=
  ⟨rfl, fun _ _ => rfl, fun _ => rfl, rfl, rfl⟩

/-- A compare with S = 0 changes nothing (R190). -/
theorem dpOp_compare_false {op : DpOp} (h : op ∈ [.tst, .teq, .cmp, .cmn]) (rn rd : Reg) (o : Bool × Word) (s : State) :
    dpOp op false rn rd o s = s := by
  cases op
  case tst | teq | cmp | cmn => rfl
  case and | eor | sub | rsb | add | adc | sbc | rsc | orr | mov | bic | mvn => exact absurd h (by decide)

/-- Settles O31: such a word's opcode is a compare, whose operation with S = 0 gives the state itself. -/
theorem compareWithoutS : Obligations.CompareWithoutS := by
  refine ⟨fun w s hcat hop hs => ?_, by decide, by decide⟩
  have he : effectOf w s = s := by
    simp only [effectOf, hcat, hs]
    exact dpOp_compare_false (opcode_mem_compares_of_field hop) ..
  rw [exec_decode, he, guarded, ite_self]

/-! ## The logical group (R172) -/

section
variable (sf : Bool) (rd : Reg) (sc : Bool) (res : Word) (s : State)

theorem onlyFlags_setLogicFlags : OnlyFlags s (logicalFlags sf rd sc res s.flags) (setLogicFlags sf rd sc res s) := by
  have hf : logicalFlags sf rd sc res s.flags = if updatesFlags sf rd then logicFlags sc res s.flags else s.flags := by
    simp only [updatesFlags_eq_true, logicalFlags, logicFlags, BitVec.msb_eq_getLsbD_last]
    rfl
  rw [hf]
  exact onlyFlags_setFlags ..

theorem lands_logicResult : Lands s rd res (logicalFlags sf rd sc res s.flags) (logicResult sf rd sc res s) :=
  lands_setReg (onlyFlags_setLogicFlags ..) rd res

end

/-- Settles O15: AND lands `x[Rn] & op2`, with the flags of the logical group. -/
theorem andResult : Obligations.AndResult := fun _ sf rn rd _ hc =>
  eachForm_hasOpcode_next .and sf rn rd hc fun _ => lands_logicResult ..

/-- Settles O16: EOR lands `x[Rn] ^ op2`, with the flags of the logical group. -/
theorem eorResult : Obligations.EorResult := fun _ sf rn rd _ hc =>
  eachForm_hasOpcode_next .eor sf rn rd hc fun _ => lands_logicResult ..

/-- Settles O27: ORR lands `x[Rn] | op2`, with the flags of the logical group. -/
theorem orrResult : Obligations.OrrResult := fun _ sf rn rd _ hc =>
  eachForm_hasOpcode_next .orr sf rn rd hc fun _ => lands_logicResult ..

/-- Settles O28: MOV lands `op2`, with the flags of the logical group. -/
theorem movResult : Obligations.MovResult := fun _ sf rn rd _ hc =>
  eachForm_hasOpcode_next .mov sf rn rd hc fun _ => lands_logicResult ..

/-- Settles O29: BIC lands `x[Rn] & ~op2`, with the flags of the logical group. -/
theorem bicResult : Obligations.BicResult := fun _ sf rn rd _ hc =>
  eachForm_hasOpcode_next .bic sf rn rd hc fun _ => lands_logicResult ..

/-- Settles O30: MVN lands `~op2`, with the flags of the logical group. -/
theorem mvnResult : Obligations.MvnResult := fun _ sf rn rd _ hc =>
  eachForm_hasOpcode_next .mvn sf rn rd hc fun _ => lands_logicResult ..

/-- Settles O23: TST is the flag update of the logical group on `x[Rn] & op2`, for both values of S. -/
theorem tstFlags : Obligations.TstFlags := fun _ rn rd _ hc =>
  ⟨eachForm_hasOpcode_next .tst true rn rd hc fun _ => onlyFlags_setLogicFlags ..,
    eachForm_hasOpcode_next .tst false rn rd hc fun _ => onlyFlags_setLogicFlags ..⟩

/-- Settles O24: TEQ is the flag update of the logical group on `x[Rn] ^ op2`, for both values of S. -/
theorem teqFlags : Obligations.TeqFlags := fun _ rn rd _ hc =>
  ⟨eachForm_hasOpcode_next .teq true rn rd hc fun _ => onlyFlags_setLogicFlags ..,
    eachForm_hasOpcode_next .teq false rn rd hc fun _ => onlyFlags_setLogicFlags ..⟩

/-! ## The arithmetic group (R173) -/

/-- The overflow of a subtraction is that of the sum with the complement (R176). -/
theorem ovfSub_eq_ovfAdd_not (x y : Word) (total : Nat) : ovfSub x y total = ovfAdd x (~~~y) total := by
  rw [ovfSub, ovfAdd, BitVec.getLsbD_not]
  cases x.getLsbD 31 <;> cases y.getLsbD 31 <;> rfl

/-- The flags of the adder, read off the exact sum. -/
theorem arithFlags_addWithCarry (x y : Word) (cin : Bool) : arithFlags (addWithCarry x y cin) =
    let total := x.toNat + y.toNat + cin.toNat
    { n := total.testBit 31, z := decide (total % 4294967296 = 0), c := total.testBit 32, v := ovfAdd x y total } := by
  have hn : (addWithCarry x y cin).res.msb = (x.toNat + y.toNat + cin.toNat).testBit 31 := by
    rw [addWithCarry_res, BitVec.msb_eq_getLsbD_last, BitVec.getLsbD_ofNat]
    rfl
  have hz : ((addWithCarry x y cin).res == 0) = decide ((x.toNat + y.toNat + cin.toNat) % 4294967296 = 0) := by
    rw [addWithCarry_res, Bool.eq_iff_iff, beq_iff_eq, decide_eq_true_iff, ← BitVec.toNat_inj, BitVec.toNat_ofNat]
    rfl
  simp only [arithFlags, hn, hz, addWithCarry_cout, addWithCarry_ovf, ovfAdd, BitVec.msb_eq_getLsbD_last x,
    BitVec.msb_eq_getLsbD_last y]

section
variable {sf : Bool} {rd : Reg} {x y : Word} {cin : Bool} {s : State} {ovf : Bool}
  (hovf : ovf = ovfAdd x y (x.toNat + y.toNat + cin.toNat))
include hovf

theorem onlyFlags_setArithFlags : OnlyFlags s (sumFlags sf rd (x.toNat + y.toNat + cin.toNat) ovf s.flags)
    (setArithFlags sf rd (addWithCarry x y cin) s) := by
  have hf : sumFlags sf rd (x.toNat + y.toNat + cin.toNat) ovf s.flags =
      if updatesFlags sf rd then arithFlags (addWithCarry x y cin) else s.flags := by
    simp only [updatesFlags_eq_true, sumFlags, arithFlags_addWithCarry, hovf]
  rw [hf]
  exact onlyFlags_setFlags ..

theorem lands_arithResult : Lands s rd (BitVec.ofNat 32 (x.toNat + y.toNat + cin.toNat))
    (sumFlags sf rd (x.toNat + y.toNat + cin.toNat) ovf s.flags) (arithResult sf rd (addWithCarry x y cin) s) := by
  rw [← addWithCarry_res]
  exact lands_setReg (onlyFlags_setArithFlags hovf) rd _

end

/-- Settles O17: SUB lands the exact sum `x[Rn] + ~op2 + 1`. -/
theorem subResult : Obligations.SubResult := fun _ sf rn rd _ hc =>
  eachForm_hasOpcode_next .sub sf rn rd hc fun _ => lands_arithResult (cin := true) (ovfSub_eq_ovfAdd_not ..)

/-- Settles O18: RSB lands the exact sum `op2 + ~x[Rn] + 1`. -/
theorem rsbResult : Obligations.RsbResult := fun _ sf rn rd _ hc =>
  eachForm_hasOpcode_next .rsb sf rn rd hc fun _ => lands_arithResult (cin := true) (ovfSub_eq_ovfAdd_not ..)

/-- Settles O19: ADD lands the exact sum `x[Rn] + op2`. -/
theorem addResult : Obligations.AddResult := fun _ sf rn rd _ hc =>
  eachForm_hasOpcode_next .add sf rn rd hc fun _ => lands_arithResult (cin := false) rfl

/-- Settles O20: ADC lands the exact sum `x[Rn] + op2 + C`. -/
theorem adcResult : Obligations.AdcResult := fun _ sf rn rd _ hc =>
  eachForm_hasOpcode_next .adc sf rn rd hc fun _ => lands_arithResult rfl

/-- Settles O21: SBC lands the exact sum `x[Rn] + ~op2 + C`. -/
theorem sbcResult : Obligations.SbcResult := fun _ sf rn rd _ hc =>
  eachForm_hasOpcode_next .sbc sf rn rd hc fun _ => lands_arithResult (ovfSub_eq_ovfAdd_not ..)

/-- Settles O22: RSC lands the exact sum `op2 + ~x[Rn] + C`. -/
theorem rscResult : Obligations.RscResult := fun _ sf rn rd _ hc =>
  eachForm_hasOpcode_next .rsc sf rn rd hc fun _ => lands_arithResult (ovfSub_eq_ovfAdd_not ..)

/-- Settles O25: CMP is the flag update of the arithmetic group on `x[Rn] + ~op2 + 1`, with S = 0 no update. -/
theorem cmpFlags : Obligations.CmpFlags := fun _ rn rd s hc =>
  ⟨eachForm_hasOpcode_next .cmp true rn rd hc fun _ => onlyFlags_setArithFlags (cin := true) (ovfSub_eq_ovfAdd_not ..),
    eachForm_hasOpcode_next .cmp false rn rd hc fun _ => onlyFlags_setFlags s s.flags⟩

/-- Settles O26: CMN is the flag update of the arithmetic group on `x[Rn] + op2`, with S = 0 no update. -/
theorem cmnFlags : Obligations.CmnFlags := fun _ rn rd s hc =>
  ⟨eachForm_hasOpcode_next .cmn true rn rd hc fun _ => onlyFlags_setArithFlags (cin := false) rfl,
    eachForm_hasOpcode_next .cmn false rn rd hc fun _ => onlyFlags_setFlags s s.flags⟩

/-! ## The arithmetic group on exact integers (R193) -/

/-- The C flag as a word of value 0 or 1. -/
def carryWord (cin : Bool) : Word := if cin then 1 else 0

@[simp] theorem toNat_carryWord (cin : Bool) : (carryWord cin).toNat = cin.toNat := by cases cin <;> rfl

theorem addWithCarry_res_eq_add (x y : Word) (cin : Bool) : (addWithCarry x y cin).res = x + y + carryWord cin := by
  rw [addWithCarry_res, ← toNat_carryWord, BitVec.ofNat_add, BitVec.ofNat_add]
  simp only [BitVec.ofNat_toNat, BitVec.setWidth_eq]

/-- A subtraction with borrow: `x + ~y + cin` is `x - y - (1 - cin)`. -/
theorem addWithCarry_not_res_eq_sub (x y : Word) (cin : Bool) :
    (addWithCarry x (~~~y) cin).res = x - y - (1 - carryWord cin) := by
  rw [addWithCarry_res_eq_add]
  bv_omega

/-- No borrow: the exact sum `x + ~y + cin` reaches `2^32`. -/
theorem le_add_not_iff (x y : Word) (cin : Bool) :
    2 ^ 32 ≤ x.toNat + (~~~y).toNat + (carryWord cin).toNat ↔ y.toNat + (1 - (carryWord cin).toNat) ≤ x.toNat := by
  have hy := y.isLt
  have hc : cin.toNat ≤ 1 := Bool.toNat_le cin
  rw [BitVec.toNat_not, toNat_carryWord]
  omega

section
variable {rd : Reg} {x y : Word} {cin : Bool} {s : State} {carry : Prop} {sum : Int} (hrd : rd ≠ 15)
  (hcarry : 2 ^ 32 ≤ x.toNat + y.toNat + (carryWord cin).toNat ↔ carry)
  (hsum : signed x + signed y + (carryWord cin).toNat = sum)
include hrd hcarry hsum

/-- C and V of the adder: the exact unsigned sum, and the exact signed sum, is too large for 32 bits. -/
theorem carry_overflow_setArithFlags : ((setArithFlags true rd (addWithCarry x y cin) s).flags.c = true ↔ carry) ∧
    ((setArithFlags true rd (addWithCarry x y cin) s).flags.v = true ↔ sum < -2 ^ 31 ∨ 2 ^ 31 - 1 < sum) := by
  rw [toNat_carryWord] at hcarry hsum
  rw [flags_setArithFlags, if_pos (updatesFlags_eq_true.mpr ⟨rfl, hrd⟩), ← hsum]
  exact ⟨addWithCarry_cout_iff.trans hcarry, addWithCarry_ovf_iff.trans (or_congr_right Int.sub_one_lt_iff.symm)⟩

theorem reg_carry_overflow_arithResult {res : Word} (hres : (addWithCarry x y cin).res = res) :
    (arithResult true rd (addWithCarry x y cin) s).reg rd = res ∧
    ((arithResult true rd (addWithCarry x y cin) s).flags.c = true ↔ carry) ∧
    ((arithResult true rd (addWithCarry x y cin) s).flags.v = true ↔ sum < -2 ^ 31 ∨ 2 ^ 31 - 1 < sum) :=
  ⟨(State.reg_setReg_same ..).trans hres, carry_overflow_setArithFlags hrd hcarry hsum⟩

end

/-- Settles O32: each opcode is the adder on the two addends and the carry-in of its row of R193. -/
theorem adderEquivalents : Obligations.AdderEquivalents := fun rn rd _ hrd =>
  ⟨eachForm_next .sub true rn rd rfl fun _ =>
      reg_carry_overflow_arithResult (cin := true) hrd (le_add_not_iff ..) rfl (addWithCarry_not_res ..),
    eachForm_next .rsb true rn rd rfl fun _ =>
      reg_carry_overflow_arithResult (cin := true) hrd (le_add_not_iff ..) rfl (addWithCarry_not_res ..),
    eachForm_next .add true rn rd rfl fun _ =>
      reg_carry_overflow_arithResult (cin := false) hrd .rfl (Int.add_zero _)
        ((addWithCarry_res_eq_add ..).trans (BitVec.add_zero _)),
    eachForm_next .adc true rn rd rfl fun _ =>
      reg_carry_overflow_arithResult hrd .rfl rfl (addWithCarry_res_eq_add ..),
    eachForm_next .sbc true rn rd rfl fun _ =>
      reg_carry_overflow_arithResult hrd (le_add_not_iff ..) rfl (addWithCarry_not_res_eq_sub ..),
    eachForm_next .rsc true rn rd rfl fun _ =>
      reg_carry_overflow_arithResult hrd (le_add_not_iff ..) rfl (addWithCarry_not_res_eq_sub ..),
    eachForm_next .cmp true rn rd rfl fun _ =>
      carry_overflow_setArithFlags (cin := true) hrd (le_add_not_iff ..) rfl,
    eachForm_next .cmn true rn rd rfl fun _ =>
      carry_overflow_setArithFlags (cin := false) hrd .rfl (Int.add_zero _)⟩

end Sys2Proof.Machine
end

section
/-! The single data transfers (`spec/43_single_data_transfer.md` R220 to R231). The two offset forms of LDR, STR, LDRB and
STRB do one operation under one condition, so each claim about an instruction is a claim about its unit at any offset. -/

namespace Sys2Proof.Machine
open Claims

/-! ## The addressing forms (R222 to R224, R229) -/

theorem writeBackValue_up (p w : Bool) (base off : Word) : writeBackValue ⟨p, true, w⟩ base off = base + off := by
  simp [writeBackValue, indexedAddress, BitVec.ofInt_add]

theorem writeBackValue_down (p w : Bool) (base off : Word) : writeBackValue ⟨p, false, w⟩ base off = base - off := by
  simp [writeBackValue, indexedAddress, Int.sub_eq_add_neg, BitVec.ofInt_add, BitVec.ofInt_neg, BitVec.sub_eq_add_neg]

/-- Settles O34: `P`, `U` and `W` select the address and whether the base is written; `U` selects the value it gets. -/
theorem addressingForms : Obligations.AddressingForms := fun _ _ =>
  ⟨⟨rfl, rfl⟩, ⟨rfl, rfl⟩, ⟨rfl, rfl, writeBackValue_up ..⟩, ⟨rfl, rfl, writeBackValue_down ..⟩,
    fun _ => ⟨rfl, rfl, writeBackValue_up ..⟩, fun _ => ⟨rfl, rfl, writeBackValue_down ..⟩⟩

/-! ## The four instructions and their forms (R97, R220) -/

/-- The immediate form of the load (`l = true`) or store of a width. -/
def transferImm : Bool → Width → Cond → Indexing → Reg → Reg → BitVec 12 → Instr
  | true, .word => .ldrImm
  | false, .word => .strImm
  | true, .byte => .ldrbImm
  | false, .byte => .strbImm

/-- The shifted-register form of the load (`l = true`) or store of a width. -/
def transferReg : Bool → Width → Cond → Indexing → Reg → Reg → ShiftImm → Instr
  | true, .word => .ldrReg
  | false, .word => .strReg
  | true, .byte => .ldrbReg
  | false, .byte => .strbReg

/-- The unit of the load (`l = true`) or the store. -/
def transferOp : Bool → Instr → Width → Indexing → Reg → Reg → Word → State → State
  | true => loadOp
  | false => storeOp

section
variable (l : Bool) (n : Width) (c : Cond) (ix : Indexing) (rn rd : Reg)

theorem exec_transferImm (o : BitVec 12) (s : State) : exec (transferImm l n c ix rn rd o) s =
    guarded c (transferOp l (transferImm l n c ix rn rd o) n ix rn rd (immOffset o) s) s := by
  cases l <;> cases n <;> rfl

theorem exec_transferReg (o : ShiftImm) (s : State) : exec (transferReg l n c ix rn rd o) s =
    guarded c (transferOp l (transferReg l n c ix rn rd o) n ix rn rd (regOffset o s) s) s := by
  cases l <;> cases n <;> rfl

theorem encode_transferImm (o : BitVec 12) : encode (transferImm l n c ix rn rd o) =
    encodeTransfer (place 26 1#2 ||| place1 22 (n == .byte) ||| place1 20 l) c ix rn rd (place 0 o) := by
  cases l <;> cases n <;> rfl

theorem encode_transferReg (o : ShiftImm) : encode (transferReg l n c ix rn rd o) =
    encodeTransfer (place 26 1#2 ||| place1 25 true ||| place1 22 (n == .byte) ||| place1 20 l) c ix rn rd o.word := by
  cases l <;> cases n <;> rfl

theorem hasTransferBits_transferImm (o : BitVec 12) :
    HasTransferBits (transferImm l n c ix rn rd o) ix (n == .byte) l := by
  rw [HasTransferBits, encode_transferImm]
  simp (disch := omega) [encodeTransfer, Indexing.word, place1, field_place_same, field_place_other, bitAt_place_same,
    bitAt_place_other]

theorem hasTransferBits_transferReg (o : ShiftImm) :
    HasTransferBits (transferReg l n c ix rn rd o) ix (n == .byte) l := by
  rw [HasTransferBits, encode_transferReg]
  simp (disch := omega) [encodeTransfer, Indexing.word, ShiftImm.word, place1, field_place_same, field_place_other,
    bitAt_place_same, bitAt_place_other]

end

/-! ## The memory fault (R230) -/

theorem inBounds_eq_false_iff {size : Nat} {addr : Int} {n : Width} :
    inBounds size addr n = false ↔ addr < 0 ∨ (size : Int) < addr + n.bytes := by
  rw [← Bool.not_eq_true, inBounds_iff]
  omega

theorem onlyLatches_raise (f : FaultRecord) (s : State) : OnlyLatches s f (raise f s) :=
  ⟨rfl, fun _ _ => rfl, rfl, fun _ => rfl, rfl⟩

section
variable {l : Bool} {i : Instr} {n : Width} {ix : Indexing} {rn rd : Reg} {off : Word} {s : State}

theorem transferOp_of_not_inBounds (h : inBounds s.ramSize (transferAddress ix (s.reg rn) off) n = false) :
    transferOp l i n ix rn rd off s = raise (transferFaultRecord i (transferAddress ix (s.reg rn) off) s) s := by
  cases l
  · simp only [transferOp, storeOp, memWrite_eq_none.mpr h]
  · simp only [transferOp, loadOp, memRead_eq_none.mpr h]

/-- Out of bounds, either unit latches the transfer's record and changes nothing else. -/
theorem next_onlyLatches_of_exec (he : exec i s = .next (transferOp l i n ix rn rd off s))
    (hout : transferAddress ix (s.reg rn) off < 0 ∨ (s.ramSize : Int) < transferAddress ix (s.reg rn) off + n.bytes) :
    Next i s (OnlyLatches s (transferFaultRecord i (transferAddress ix (s.reg rn) off) s)) :=
  ⟨_, he.trans (congrArg _ (transferOp_of_not_inBounds (inBounds_eq_false_iff.mpr hout))), onlyLatches_raise ..⟩

theorem next_faultsAt_of_onlyLatches {addr : Int} (h : Next i s (OnlyLatches s (transferFaultRecord i addr s))) :
    Next i s (FaultsAt s addr) :=
  have ⟨t, he, ht⟩ := h
  ⟨t, he, transferFaultRecord i addr s, rfl, rfl, ht⟩

end

/-! ## Every form under a passing condition -/

section
variable (l : Bool) (n : Width) {c : Cond} {ix : Indexing} {rn rd : Reg} {s : State} (hc : condPass c s.flags = true)
include hc

/-- Where the condition passes, both forms have the bits of their row and complete with the unit at their own offset. -/
theorem eachOffset_of_exec {P : Instr → Word → Prop} (hP : ∀ i off, HasTransferBits i ix (n == .byte) l →
      exec i s = .next (transferOp l i n ix rn rd off s) → P i off) :
    EachOffset (transferImm l n c ix rn rd) (transferReg l n c ix rn rd) s P :=
  ⟨fun _ => hP _ _ (hasTransferBits_transferImm ..) ((exec_transferImm ..).trans (guarded_pass hc _)),
    fun _ => hP _ _ (hasTransferBits_transferReg ..) ((exec_transferReg ..).trans (guarded_pass hc _))⟩

/-- Out of bounds, both forms latch their record and change nothing else. -/
theorem eachOffset_onlyLatches : EachOffset (transferImm l n c ix rn rd) (transferReg l n c ix rn rd) s fun i off =>
    transferAddress ix (s.reg rn) off < 0 ∨ (s.ramSize : Int) < transferAddress ix (s.reg rn) off + n.bytes →
      Next i s (OnlyLatches s (transferFaultRecord i (transferAddress ix (s.reg rn) off) s)) :=
  eachOffset_of_exec l n hc fun _ _ _ he => next_onlyLatches_of_exec he

/-- A claim about an instruction, from what its unit does in bounds. -/
theorem eachOffset_result {P : Word → State → Prop}
    (hP : ∀ i off, inBounds s.ramSize (transferAddress ix (s.reg rn) off) n = true →
      P off (transferOp l i n ix rn rd off s)) :
    EachOffset (transferImm l n c ix rn rd) (transferReg l n c ix rn rd) s fun i off =>
      HasTransferBits i ix (n == .byte) l ∧
      (0 ≤ transferAddress ix (s.reg rn) off → transferAddress ix (s.reg rn) off + n.bytes ≤ s.ramSize →
        Next i s (P off)) ∧
      (transferAddress ix (s.reg rn) off < 0 ∨ (s.ramSize : Int) < transferAddress ix (s.reg rn) off + n.bytes →
        Next i s (FaultsAt s (transferAddress ix (s.reg rn) off))) :=
  eachOffset_of_exec l n hc fun i off hbits he =>
    ⟨hbits, fun h0 h1 => ⟨_, he, hP i off (inBounds_iff.mpr ⟨h0, h1⟩)⟩, fun hout =>
      next_faultsAt_of_onlyLatches (next_onlyLatches_of_exec he hout)⟩

end

/-- Settles O39: out of bounds, each of the four units raises the transfer's record in both offset forms. -/
theorem transferFault : Obligations.TransferFault := fun _ _ _ _ _ hc =>
  ⟨eachOffset_onlyLatches true .word hc, eachOffset_onlyLatches false .word hc, eachOffset_onlyLatches true .byte hc,
    eachOffset_onlyLatches false .byte hc⟩

/-! ## What a transfer in bounds does (R224 to R228, R231) -/

section
variable {i : Instr} {n : Width} {ix : Indexing} {rn rd : Reg} {off : Word} {s : State}

theorem byteAt_writeBackBase (base : Word) (a : Nat) : (writeBackBase ix rn base off s).byteAt a = s.byteAt a :=
  congrArg (Memory.get · a) (ram_writeBackBase ..)

/-- The write-back comes after the loaded value, so it wins where `Rd` is the base. -/
theorem loads_writeBackBase (val : Word) :
    Loads s ix rn rd off val (writeBackBase ix rn (s.reg rn) off (s.setReg rd val)) := by
  refine ⟨fun h => ?_, fun h => ?_, flags_writeBackBase .., fun a => ?_, ramSize_writeBackBase .., fault_writeBackBase ..⟩
  · rw [writeBackBase_of_true h]
    refine ⟨State.reg_setReg_same .., fun hne => ?_, fun q hq => ?_⟩
    · rw [State.reg_setReg_ne _ _ hne, State.reg_setReg_same]
    · obtain ⟨hrd, hrn⟩ : q ≠ rd ∧ q ≠ rn := by simpa using hq
      rw [State.reg_setReg_ne _ _ hrn, State.reg_setReg_ne _ _ hrd]
  · rw [writeBackBase_of_false h]
    exact ⟨State.reg_setReg_same .., fun q hq => State.reg_setReg_ne _ _ (mt List.mem_singleton.mpr hq)⟩
  · rw [byteAt_writeBackBase, State.byteAt_setReg]

theorem loads_loadOp {val : Word} (h : memRead s (transferAddress ix (s.reg rn) off) n = some val) :
    Loads s ix rn rd off val (loadOp i n ix rn rd off s) := by
  simp only [loadOp, h]
  exact loads_writeBackBase val

/-- The write-back after the bytes are written leaves them alone. -/
theorem stores_writeBackBase {t : State} {addr : Int} (hw : s.ram.wf) (h : memWrite s addr n (s.reg rd) = some t) :
    Stores s ix rn rd off addr n.bytes (writeBackBase ix rn (s.reg rn) off t) := by
  obtain ⟨-, ht, hout, hin, -⟩ := memWrite_eq_some h
  obtain ⟨-, hbytes⟩ := hin hw
  have hreg (q : Reg) : t.reg q = s.reg q := by rw [ht, State.reg_setRam]
  refine ⟨fun k hk => (byteAt_writeBackBase ..).trans (hbytes k hk),
    fun a ha => (byteAt_writeBackBase ..).trans (hout a ha), fun hwb => ?_, fun hwb => ?_, ?_, ?_, ?_⟩
  · rw [writeBackBase_of_true hwb]
    exact ⟨State.reg_setReg_same .., fun q hq =>
      (State.reg_setReg_ne _ _ (mt List.mem_singleton.mpr hq)).trans (hreg q)⟩
  · rw [writeBackBase_of_false hwb]
    exact fun q _ => hreg q
  · rw [flags_writeBackBase, ht, State.flags_setRam]
  · rw [ramSize_writeBackBase, ht, State.ramSize_setRam]
  · rw [fault_writeBackBase, ht, State.fault_setRam]

theorem stores_storeOp (hw : s.ram.wf) (h : inBounds s.ramSize (transferAddress ix (s.reg rn) off) n = true) :
    Stores s ix rn rd off (transferAddress ix (s.reg rn) off) n.bytes (storeOp i n ix rn rd off s) := by
  have hm := memWrite_of_inBounds (s.reg rd) h
  simp only [storeOp, hm]
  exact stores_writeBackBase hw hm

end

/-- Settles O35: the word read at the address lands, and out of bounds the fault is raised. -/
theorem ldrResult : Obligations.LdrResult := fun _ _ _ _ _ hc =>
  eachOffset_result true .word hc fun _ _ h => loads_loadOp (memRead_of_inBounds (n := .word) h)

/-- Settles O36: the four bytes are stored at the address, and out of bounds the fault is raised. -/
theorem strResult : Obligations.StrResult := fun _ _ _ _ _ hc hw =>
  eachOffset_result false .word hc fun _ _ h => stores_storeOp hw h

/-- Settles O37: the byte read at the address lands zero-extended, and out of bounds the fault is raised. -/
theorem ldrbResult : Obligations.LdrbResult := fun _ _ _ _ _ hc =>
  eachOffset_result true .byte hc fun _ _ h => loads_loadOp (memRead_of_inBounds (n := .byte) h)

/-- Settles O38: the low byte is stored at the address, and out of bounds the fault is raised. -/
theorem strbResult : Obligations.StrbResult := fun _ _ _ _ _ hc hw =>
  eachOffset_result false .byte hc fun _ _ h => stores_storeOp hw h

end Sys2Proof.Machine
end

section
/-! The branches (`spec/44_branch.md` R250 to R254): B and BL take one jump, and BL writes the link before it. -/

namespace Sys2Proof.Machine
open Claims

/-- The distance of R99 is four times the library's signed value of the field. -/
theorem branchDistance_eq_toInt (imm24 : BitVec 24) : branchDistance imm24 = 2 ^ 2 * imm24.toInt := by
  rw [branchDistance, BitVec.toInt_eq_msb_cond, ← BitVec.msb_eq_getLsbD_last]
  cases imm24.msb <;> simp [Int.mul_sub]

/-- The sign-extended offset is the signed distance modulo `2^32` (R99). -/
theorem branchOffset_eq_ofInt (imm24 : BitVec 24) : branchOffset imm24 = BitVec.ofInt 32 (branchDistance imm24) := by
  rw [branchOffset, BitVec.signExtend, BitVec.toInt_append_zero, branchDistance_eq_toInt]

/-- R250: with the PC at `A + 4`, a branch leaves it at `A + 8` plus the signed distance, modulo `2^32`. -/
theorem pc_branchTo (imm24 : BitVec 24) (s : State) :
    (branchTo imm24 s).pc = BitVec.ofInt 32 (((s.pc - 4).toNat : Int) + 8 + branchDistance imm24) := by
  have target : s.pc + branchOffset imm24 + 4 = s.pc - 4 + 8 + branchOffset imm24 := by bv_omega
  rw [branchTo, State.pc_setPc, target, branchOffset_eq_ofInt, BitVec.ofInt_add, BitVec.ofInt_add, BitVec.ofInt_natCast,
    BitVec.ofNat_toNat, BitVec.setWidth_eq]
  rfl

theorem keepsRegs_branchTo (imm24 : BitVec 24) (s : State) : KeepsRegs s (branchTo imm24 s) [15] := fun _ hq =>
  State.reg_setReg_ne _ _ (mt List.mem_singleton.mpr hq)

theorem keepsRegs_branchTo_link (imm24 : BitVec 24) (s : State) : KeepsRegs s (branchTo imm24 (link s)) [14, 15] := by
  intro q hq
  obtain ⟨hlink, hpc⟩ := not_or.mp (mt List.mem_cons.mpr hq)
  exact (keepsRegs_branchTo imm24 (link s) q hpc).trans (State.reg_setReg_ne _ _ hlink)

theorem reg_link_branchTo_link (imm24 : BitVec 24) (s : State) : (branchTo imm24 (link s)).reg 14 = s.pc :=
  (keepsRegs_branchTo imm24 (link s) 14 (by decide)).trans (State.reg_setReg_same ..)

/-- A branch word under its mask: the condition and the offset lie outside it, the fixed bits are left (R99). -/
theorem branchWord_and_mask {fixed : Word} (hf : fixed &&& 0x0F000000 = fixed) (c : Cond) (imm24 : BitVec 24) :
    (place 28 c.bits ||| fixed ||| place 0 imm24) &&& 0x0F000000 = fixed := by
  simpa (disch := decide) [or_and_mask, place_and_mask] using hf

/-- Settles O40: B is the jump, which writes register 15 alone. -/
theorem branchTarget : Obligations.BranchTarget := fun c imm24 s hc =>
  ⟨branchWord_and_mask rfl c imm24, _, guarded_pass hc _, pc_branchTo imm24 s, keepsRegs_branchTo imm24 s, rfl,
    fun _ => rfl, rfl, rfl⟩

/-- Settles O41: BL is the jump from the state with the link written, whose PC is still `A + 4`. -/
theorem branchLink : Obligations.BranchLink := by
  intro c imm24 s hc
  have hpc := pc_branchTo imm24 (link s)
  have hlink := reg_link_branchTo_link imm24 s
  rw [pc_link] at hpc
  exact ⟨branchWord_and_mask rfl c imm24, _, guarded_pass hc _, hlink.trans (BitVec.sub_add_cancel ..).symm, hlink, hpc,
    keepsRegs_branchTo_link imm24 s, rfl, fun _ => rfl, rfl, rfl⟩

end Sys2Proof.Machine
end

section
/-! The long multiplies (`spec/45_long_multiply.md` R260 to R271): UMULL, UMLAL, SMULL and SMLAL land one 64-bit result in the
same way and differ in its value alone. -/

namespace Sys2Proof.Machine
open Claims

/-! ## Where a 64-bit result lands (R260, R262, R263) -/

/-- The high half is written last, so it stays where both destinations are one register (R271). -/
theorem longLands_longResult (sf : Bool) (rdHi rdLo : Reg) (res : DWord) (s : State) :
    LongLands s sf rdHi rdLo res (longResult sf rdHi rdLo res s) := by
  refine ⟨?_, fun hne => ?_, ?_, fun q hq => ?_, fun _ => rfl, rfl, rfl⟩
  · rw [reg_longResult, if_pos rfl]
  · rw [reg_longResult, if_neg hne.symm, if_pos rfl]
  · cases sf
    · rfl
    · rw [flags_longResult, if_pos rfl, longFlags, BitVec.msb_eq_getLsbD_last]
      rfl
  · obtain ⟨hhi, hlo⟩ : q ≠ rdHi ∧ q ≠ rdLo := by simpa using hq
    rw [reg_longResult, if_neg hhi.symm, if_neg hlo.symm]

/-- A multiply word under its mask: the condition, S and the registers lie outside it, the fixed bits are left (R100). -/
theorem encodeMultiply_and_mask {fixed : Word} (hf : fixed &&& 0x0FE000F0 = fixed) (c : Cond) (sf : Bool)
    (r16 r12 r8 r0 : Reg) : encodeMultiply fixed c sf r16 r12 r8 r0 &&& 0x0FE000F0 = fixed := by
  simpa (disch := decide) [encodeMultiply, place1, or_and_mask, place_and_mask] using hf

/-- A long multiply, its condition passing, matches its row and lands its value. -/
theorem matches_and_next_longLands {fixed : Word} {c : Cond} {sf : Bool} {rdHi rdLo rs rm : Reg} {i : Instr} {s : State}
    {res val : DWord} (hf : fixed &&& 0x0FE000F0 = fixed) (hw : encode i = encodeMultiply fixed c sf rdHi rdLo rs rm)
    (hc : condPass c s.flags = true) (he : exec i s = guarded c (longResult sf rdHi rdLo val s) s) (hval : val = res) :
    Matches i 0x0FE000F0 fixed ∧ Next i s (LongLands s sf rdHi rdLo res) :=
  ⟨by rw [Matches, hw, encodeMultiply_and_mask hf],
    _, he.trans (guarded_pass hc _), hval ▸ longLands_longResult sf rdHi rdLo val s⟩

/-! ## The value (R260, R261, R264) -/

theorem unsignedProduct_eq_natCast (a b : Word) : unsignedProduct a b = (a.toNat * b.toNat : Nat) := (Nat.cast_mul ..).symm

theorem signedProduct_eq_signed_mul (a b : Word) : signedProduct a b = signed a * signed b := by
  rw [signedProduct, signed_eq_toInt, signed_eq_toInt]

/-- The accumulator is the high register, 32 places up, and the low one. -/
theorem toNat_accumulator (rdHi rdLo : Reg) (s : State) :
    (accumulator rdHi rdLo s).toNat = (s.reg rdHi).toNat * 2 ^ 32 + (s.reg rdLo).toNat := by
  rw [accumulator, BitVec.toNat_append, ← Nat.shiftLeft_add_eq_or_of_lt (s.reg rdLo).isLt, Nat.shiftLeft_eq]

/-! ## The four instructions -/

/-- Settles O42: the value is the product of the two unsigned values. -/
theorem umullResult : Obligations.UmullResult := fun _ _ _ _ _ _ _ hc =>
  matches_and_next_longLands rfl rfl hc rfl (by rw [unsignedProduct_eq_natCast, BitVec.ofInt_natCast])

/-- Settles O43: the value is the product of the two unsigned values plus the accumulator. -/
theorem umlalResult : Obligations.UmlalResult := fun _ _ _ _ _ _ _ hc =>
  matches_and_next_longLands rfl rfl hc rfl
    (by rw [unsignedProduct_eq_natCast, toNat_accumulator, ← Int.natCast_add, BitVec.ofInt_natCast])

/-- Settles O44: the value is the product of the two signed values. -/
theorem smullResult : Obligations.SmullResult := fun _ _ _ _ _ _ _ hc =>
  matches_and_next_longLands rfl rfl hc rfl (by rw [signedProduct_eq_signed_mul])

/-- Settles O45: the value is the product of the two signed values plus the accumulator. -/
theorem smlalResult : Obligations.SmlalResult := fun _ _ _ _ _ _ _ hc =>
  matches_and_next_longLands rfl rfl hc rfl (by rw [signedProduct_eq_signed_mul, toNat_accumulator])

end Sys2Proof.Machine
end

section
/-! The decode gap at the step (`spec/46_unimplemented.md` R280): a Halted machine makes no step, in no run, and a step that
dispatches a word of a category without a unit latches the gap, which is a Halted state. -/

namespace Sys2Proof.Machine
open Claims

/-! ## A Halted machine (R311, R317) -/

theorem step_of_halted {s : State} (h : s.halted = true) : step s = .fault .halted := if_pos h

/-- Whatever its limit, a run from a Halted state takes no step. -/
theorem runLimit_of_halted {s : State} (h : s.halted = true) : ∀ limit, runLimit limit s = (0, s)
  | 0 => rfl
  | _ + 1 => by rw [runLimit, step_of_halted h]

theorem fault_eq_none_of_not_halted {s : State} (h : s.halted = false) : s.fault = none := by
  by_contra hfault
  simp [halted_iff.mpr (.inl hfault)] at h

/-! ## The gap of a word (R280) -/

theorem effectOf_of_not_executes {w : Word} (h : (classify w).executes = false) (s : State) :
    effectOf w s = decodeGap (classify w) (decode w) s := by
  unfold effectOf
  split
  case h_1 hcat | h_2 hcat | h_3 hcat | h_4 hcat => simp [hcat, Category.executes] at h
  case h_5 => rfl

/-- The decoded instruction of such a word raises the gap of the word's own category. -/
theorem gaps_decode {w : Word} {s : State} (hc : condPass (Cond.ofBits (field w 28 4)) s.flags = true)
    (h : (classify w).executes = false) : Gaps (decode w) (classify w) s :=
  gaps_of_exec hc (by rw [exec_decode, effectOf_of_not_executes h])

/-- Settles O49: the step is the gap of the fetched word after the PC advance, and a state with a latched record is Halted. -/
theorem stepDecodeGap : Obligations.StepDecodeGap := by
  intro s w hrun hfetch hc hx
  obtain ⟨t, ht, hlatch, hregs, hflags, hmem, hsize⟩ := gaps_decode (s := advancePc s) hc hx
  obtain ⟨-, hword⟩ := encodeOfDecode w
  rw [hword, pc_advancePc, BitVec.add_sub_cancel] at hlatch
  have hreg (q : Reg) : t.reg q = if q = 15 then s.pc + 4 else s.reg q :=
    (hregs q List.not_mem_nil).trans (reg_advancePc s q)
  have hhalted : t.halted = true := halted_iff.mpr (.inl (by simp [hlatch]))
  exact ⟨t, (step_of_fetch (fault_eq_none_of_not_halted hrun) hfetch).trans ht, hlatch, status_eq_halted.mpr hhalted,
    hreg 15, fun q hq => (hreg q).trans (if_neg (by simpa using hq)), hflags, hmem, hsize, runLimit_of_halted hhalted⟩

end Sys2Proof.Machine
end

section
/-! The fetch-execute loop (`spec/47_fetch_execute.md` R310 to R315): every instruction runs under its own condition and
answers a next state, so a step is one of three things, by the state alone: the report of a Halted machine, the fault of the
fetch, or the fetched word's instruction after the PC advance (`step_of_halted`, `step_of_fetch_eq_none`, `step_of_fetch`). -/

namespace Sys2Proof.Machine
open Claims

/-! ## Every instruction under its condition (R314) -/

theorem exec_eq_guarded (i : Instr) (s : State) : ∃ t, exec i s = guarded i.cond t s := by
  cases i
  all_goals exact ⟨_, rfl⟩

theorem exec_of_condPass_false {i : Instr} {s : State} (h : condPass i.cond s.flags = false) : exec i s = .next s := by
  obtain ⟨t, ht⟩ := exec_eq_guarded i s
  exact ht.trans (guarded_fail h t)

/-- A fetched word whose condition fails: the step is the PC advance, whatever the word. -/
theorem step_of_condPass_false {s : State} {w : Word} (hrun : s.halted = false) (hf : fetch s = some w)
    (hc : condPass (Cond.ofBits (field w 28 4)) s.flags = false) : step s = .next (advancePc s) := by
  rw [step_of_fetch (fault_eq_none_of_not_halted hrun) hf, exec_decode]
  exact guarded_fail (s := advancePc s) hc _

theorem keepsRegs_advancePc (s : State) : KeepsRegs s (advancePc s) [15] := fun q hq =>
  (reg_advancePc s q).trans (if_neg (by simpa using hq))

/-- Settles O9: each constructor's meaning is guarded by its condition field, and so is each decoded word's. -/
theorem failingCondition : Obligations.FailingCondition :=
  ⟨fun _ _ => exec_of_condPass_false, fun s _ hrun hf hc =>
    ⟨advancePc s, step_of_condPass_false hrun hf hc, pc_advancePc s, keepsRegs_advancePc s, rfl, fun _ => rfl, rfl, rfl⟩⟩

/-! ## The fetch (R312) -/

/-- A fetch beyond RAM latches its fault with the PC not advanced. -/
theorem step_of_fetch_eq_none {s : State} (hrun : s.halted = false) (hf : fetch s = none) :
    step s = .next (raise (fetchFaultRecord s) s) := by
  simp only [step, hrun, hf, Bool.false_eq_true, if_false]

/-- Settles O52: in bounds the word is its four bytes as a number; out of bounds the step is the fetch fault. -/
theorem fetchWord : Obligations.FetchWord := fun s hrun =>
  ⟨fun hin => ⟨_, fetch_of_inBounds hin, toNat_wordOfBytes ..⟩, fun hout =>
    ⟨raise (fetchFaultRecord s) s, step_of_fetch_eq_none hrun (fetch_eq_none.mpr hout), onlyLatches_raise _ s, pc_raise _ s⟩⟩

/-! ## The step of a Running machine (R310, R313, R315) -/

/-- Settles O50: the four bytes at the PC are the fetched word's, and the decoder reads that word. -/
theorem stepRunsDecodedInstruction : Obligations.StepRunsDecodedInstruction := by
  intro s i hfault hin hdec
  rw [decodeBytes_four] at hdec
  obtain ⟨rfl, -⟩ := Prod.mk.inj (Except.ok.inj hdec)
  exact step_of_fetch hfault (fetch_of_inBounds hin)

/-! ## The step of a Halted machine (R311, R34) -/

/-- A machine that is not Halted makes a transition, by the fetch fault or by the fetched instruction. -/
theorem exists_step_eq_next_of_not_halted {s : State} (hrun : s.halted = false) : ∃ t, step s = .next t := by
  cases hf : fetch s with
  | none => exact ⟨_, step_of_fetch_eq_none hrun hf⟩
  | some w =>
    rw [step_of_fetch (fault_eq_none_of_not_halted hrun) hf, exec_decode]
    exact ⟨_, rfl⟩

theorem step_eq_fault_halted_iff {s : State} : step s = .fault .halted ↔ s.halted = true := by
  refine ⟨fun hstep => ?_, step_of_halted⟩
  by_contra hrun
  obtain ⟨t, ht⟩ := exists_step_eq_next_of_not_halted (Bool.eq_false_iff.mpr hrun)
  simp [hstep] at ht

/-- Settles O51: the report and the status are both `State.halted`, and a run from such a state is over at once. -/
theorem haltedIsAbsorbing : Obligations.HaltedIsAbsorbing := fun _ =>
  ⟨step_eq_fault_halted_iff.trans halted_iff, status_eq_halted.trans halted_iff,
    fun h => runLimit_of_halted (status_eq_halted.mp h)⟩

end Sys2Proof.Machine
end

section
/-! What a step keeps (`spec/60_exceptions.md` R331 to R334, `spec/20_memory.md` R53, R54): a step changes RAM by
one write in bounds or the latch by one raised record, never both, and nothing but the PC has changed when it raises. Precise
faults and the invariant both follow from that. -/

namespace Sys2Proof.Machine

/-! ## The storage: RAM, its size and the latch -/

/-- RAM, its size and the fault latch are the same: what the invariant speaks of. -/
structure SameStorage (s t : State) : Prop where
  ram : t.ram = s.ram
  ramSize : t.ramSize = s.ramSize
  fault : t.fault = s.fault

theorem sameStorage_writeBackBase (ix : Indexing) (rn : Reg) (base off : Word) (s : State) :
    SameStorage s (writeBackBase ix rn base off s) :=
  ⟨ram_writeBackBase .., ramSize_writeBackBase .., fault_writeBackBase ..⟩

theorem sameStorage_setReg_writeBackBase (ix : Indexing) (rn rd : Reg) (v base off : Word) (s : State) :
    SameStorage s (writeBackBase ix rn base off (s.setReg rd v)) :=
  ⟨ram_writeBackBase .., ramSize_writeBackBase .., fault_writeBackBase ..⟩

theorem sameStorage_dpOp (op : DpOp) (sf : Bool) (rn rd : Reg) (o : Bool × Word) (s : State) :
    SameStorage s (dpOp op sf rn rd o s) := by
  cases op <;> exact ⟨rfl, rfl, rfl⟩

/-- What a word can do to the storage on its way from `s` to `t`: leave it alone, write RAM once in bounds, or raise a
consistent record in `s` as it stands, and then nothing else has changed. -/
inductive StorageChange (s : State) : State → Prop where
  | same {t : State} (h : SameStorage s t) : StorageChange s t
  | wrote {t u : State} {addr : Int} {n : Width} {v : Word} (h : memWrite s addr n v = some u) (ht : SameStorage u t) :
      StorageChange s t
  | raised {f : FaultRecord} (hf : f.consistent = true) : StorageChange s (raise f s)

/-! ## The records are consistent (R331 to R333) -/

theorem consistent_fetchFaultRecord (s : State) : (fetchFaultRecord s).consistent = true := by
  simp [FaultRecord.consistent, fetchFaultRecord]

theorem consistent_decodeGapRecord {w : Word} {cat : Category} (hc : classify w = cat) (hx : cat.executes = false)
    (s : State) : (decodeGapRecord cat (decode w) s).consistent = true := by
  obtain ⟨-, hw⟩ := encodeOfDecode w
  simp [FaultRecord.consistent, decodeGapRecord, hw, hc, hx]

theorem consistent_transferFaultRecord {w : Word} (h : classify w = .singleDataTransfer) (addr : Int) (s : State) :
    (transferFaultRecord (decode w) addr s).consistent = true := by
  obtain ⟨-, hw⟩ := encodeOfDecode w
  simp [FaultRecord.consistent, transferFaultRecord, hw, h]

/-! ## Each unit, and every word -/

section
variable {i : Instr} {s : State} (hi : ∀ addr, (transferFaultRecord i addr s).consistent = true) (n : Width) (ix : Indexing)
  (rn rd : Reg) (off : Word)
include hi

theorem storageChange_loadOp : StorageChange s (loadOp i n ix rn rd off s) := by
  obtain ⟨v, -, hl⟩ | ⟨-, hl⟩ := loadOp_cases i n ix rn rd off s
  · exact hl ▸ .same (sameStorage_setReg_writeBackBase ..)
  · exact hl ▸ .raised (hi _)

theorem storageChange_storeOp : StorageChange s (storeOp i n ix rn rd off s) := by
  obtain ⟨t, ht, hs⟩ | ⟨-, hs⟩ := storeOp_cases i n ix rn rd off s
  · exact hs ▸ .wrote ht (sameStorage_writeBackBase ..)
  · exact hs ▸ .raised (hi _)

end

theorem storageChange_effectOf (w : Word) (s : State) : StorageChange s (effectOf w s) := by
  cases hc : classify w <;> simp only [effectOf, hc]
  case dataProcessing => exact .same (sameStorage_dpOp ..)
  case singleDataTransfer =>
    have hi (addr : Int) := consistent_transferFaultRecord hc addr s
    split
    · exact storageChange_loadOp hi ..
    · exact storageChange_storeOp hi ..
  case branch => split <;> exact .same ⟨rfl, rfl, rfl⟩
  case longMultiply => exact .same ⟨rfl, rfl, rfl⟩
  all_goals exact .raised (consistent_decodeGapRecord hc rfl s)

/-! ## The step -/

/-- All a step that answers a next state can do: the fetch fault, or what the fetched word does after the PC advance, which is
nothing more where its condition fails. -/
theorem step_cases {s t : State} (h : step s = .next t) : s.fault = none ∧
    ((fetch s = none ∧ t = raise (fetchFaultRecord s) s) ∨ StorageChange (advancePc s) t) := by
  have hrun : s.halted = false := Bool.eq_false_iff.mpr fun hh => by simp [step_of_halted hh] at h
  have hl := fault_eq_none_of_not_halted hrun
  refine ⟨hl, ?_⟩
  cases hf : fetch s with
  | none =>
    rw [step_of_fetch_eq_none hrun hf] at h
    exact .inl ⟨rfl, (Host.Outcome.next.inj h).symm⟩
  | some w =>
    rw [step_of_fetch hl hf, exec_decode] at h
    obtain ⟨-, rfl⟩ | ⟨-, rfl⟩ := guarded_cases h
    · exact .inr (storageChange_effectOf w _)
    · exact .inr (.same ⟨rfl, rfl, rfl⟩)

/-! ## The invariant -/

theorem SameStorage.inv {s t : State} (h : SameStorage s t) (hs : s.Inv) : t.Inv := by
  obtain ⟨hram, hsize, hfault⟩ := h
  simpa only [State.Inv, hram, hsize, hfault] using hs

theorem inv_raise {f : FaultRecord} (hf : f.consistent = true) {s : State} (hs : s.Inv) : (raise f s).Inv :=
  have ⟨hwf, hlt, hmin, hmax, _⟩ := hs
  ⟨hwf, hlt, hmin, hmax, hf⟩

theorem inv_memWrite {s t : State} {addr : Int} {n : Width} {v : Word} (h : memWrite s addr n v = some t) (hs : s.Inv) :
    t.Inv := by
  obtain ⟨hwf, hlt, hmin, hmax, hfault⟩ := hs
  obtain ⟨-, ht, -, -, hbound⟩ := memWrite_eq_some h
  have hlt' := hbound hlt
  have hwf' := memWrite_keeps_wf hwf h
  rw [ht] at hlt' hwf' ⊢
  exact ⟨hwf', hlt', hmin, hmax, hfault⟩

theorem StorageChange.inv {s t : State} (h : StorageChange s t) (hs : s.Inv) : t.Inv := by
  cases h with
  | same h => exact h.inv hs
  | wrote h ht => exact ht.inv (inv_memWrite h hs)
  | raised hf => exact inv_raise hf hs

/-- Settles O58: the fetch fault is consistent, and each change of storage that a word can make keeps the invariant. -/
theorem stepKeepsInvariant : Obligations.StepKeepsInvariant := by
  intro s t hs hstep
  obtain ⟨-, ⟨-, rfl⟩ | hchange⟩ := step_cases hstep
  · exact inv_raise (consistent_fetchFaultRecord s) hs
  · exact hchange.inv (s := advancePc s) hs

/-! ## Precise faults (R334, R316 (b)) -/

/-- A change of storage that latches a record has done nothing else. -/
theorem StorageChange.fault_eq_none_or {s t : State} (h : StorageChange s t) (hl : s.fault = none) :
    t.fault = none ∨ ∃ f, t = raise f s := by
  cases h with
  | same h => exact .inl (h.fault.trans hl)
  | wrote h ht =>
    obtain ⟨-, hu, -⟩ := memWrite_eq_some h
    exact .inl (by rw [ht.fault, hu, State.fault_setRam, hl])
  | raised hf => exact .inr ⟨_, rfl⟩

/-- Settles O53: the step that latches a record raises it in the state before it, or in that state after the PC advance. -/
theorem preciseFaults : Obligations.PreciseFaults := by
  intro s t hstep
  obtain ⟨hl, ⟨hf, rfl⟩ | hchange⟩ := step_cases hstep
  · exact ⟨hl, .inr ⟨.inr ⟨hf, pc_raise ..⟩, fun _ _ => rfl, rfl, fun _ => rfl, rfl⟩⟩
  · refine ⟨hl, (hchange.fault_eq_none_or hl).imp_right ?_⟩
    rintro ⟨f, rfl⟩
    exact ⟨.inl (pc_advancePc s), keepsRegs_advancePc s, rfl, fun _ => rfl, rfl⟩

end Sys2Proof.Machine
end

section
/-! Reset (`spec/70_reset_and_hazards.md` R360 to R363, `spec/10_state.md` R36): what it creates, part by part, and that its
preconditions decide whether it creates anything. -/

namespace Sys2Proof.Machine

theorem resetMachine_eq_some_iff {a : ResetArgs} {s : State} :
    resetMachine a = some s ↔ a.valid = true ∧ s = State.ofReset a := by
  rw [resetMachine, Option.ite_none_right_eq_some, Option.some_inj, eq_comm (a := s)]

/-! ## The registers and RAM -/

theorem reg_ofReset (a : ResetArgs) (r : Reg) : (State.ofReset a).reg r =
    if r = 15 then a.startPc else if r = 14 then (if a.lrPreset then BitVec.ofNat 32 a.ramSize else 0) else 0 := by
  rw [State.reg, State.ofReset, resetRegs, Vector.getElem_set, Vector.getElem_set, Vector.getElem_replicate]
  simp only [Fin.ext_iff, eq_comm (b := r.val)]
  rfl

theorem byteAt_ofReset (a : ResetArgs) (q : Nat) : (State.ofReset a).byteAt q = a.image.getD q 0 :=
  (Memory.get_ofBytes 0 a.image q).trans (if_pos q.zero_le)

/-- Settles O60: the preconditions are `ResetArgs.valid`, and each part of the created state is read off. -/
theorem resetState : Obligations.ResetState := by
  intro a
  rw [← resetArgs_valid_iff]
  refine ⟨fun hv => ⟨State.ofReset a, resetMachine_eq_some_iff.mpr ⟨hv, rfl⟩, fun r hr => ?_, ?_, ?_, rfl,
    fun i hi => ?_, fun i hi _ => ?_, rfl, rfl⟩, fun hv => if_neg hv⟩
  · have h15 : r ≠ 15 := fun h => absurd (h ▸ hr) (by decide)
    have h14 : r ≠ 14 := fun h => absurd (h ▸ hr) (by decide)
    rw [reg_ofReset, if_neg h15, if_neg h14]
  · exact reg_ofReset a 14
  · exact reg_ofReset a 15
  · rw [byteAt_ofReset, List.getD_eq_getElem _ _ hi]
  · rw [byteAt_ofReset, List.getD_eq_default _ _ hi]

/-! ## The invariant after Reset -/

theorem inv_ofReset {a : ResetArgs} (h : a.valid = true) : (State.ofReset a).Inv := by
  obtain ⟨hmin, hmax, hfits⟩ := resetArgs_valid_iff.mp h
  have hlt (x : Host.Cell) (hx : x ∈ (State.ofReset a).ram) : x.1 < a.ramSize := by
    have := Memory.ofBytes_lt 0 a.image x hx
    omega
  exact ⟨ofReset_wf a, hlt, hmin, hmax, rfl⟩

/-- Settles O59: the preconditions bound the image and RAM, and the model's own arguments meet them. -/
theorem resetInvariant : Obligations.ResetInvariant := by
  refine ⟨fun a s hs => ?_, inv_ofReset (by decide)⟩
  obtain ⟨hv, rfl⟩ := resetMachine_eq_some_iff.mp hs
  exact inv_ofReset hv

end Sys2Proof.Machine
end

section
/-! The writers of the flags (`spec/10_state.md` R29): the data-processing unit and the long multiply, each with S = 1. -/

namespace Sys2Proof.Machine

/-! ## Each unit -/

/-- A data-processing operation leaves other flags only with S = 1 and an `Rd` field other than 15 (R171). -/
theorem flags_dpOp_ne {op : DpOp} {sf : Bool} {rn rd : Reg} {o : Bool × Word} {s : State}
    (h : (dpOp op sf rn rd o s).flags ≠ s.flags) : sf = true ∧ rd ≠ 15 := by
  rw [← updatesFlags_eq_true]
  by_contra hno
  have logic (sc res) : (setLogicFlags sf rd sc res s).flags = s.flags := if_neg hno
  have arith (t) : (setArithFlags sf rd t s).flags = s.flags := if_neg hno
  cases op
  case and | eor | tst | teq | orr | mov | bic | mvn => exact h (logic _ _)
  case sub | rsb | add | adc | sbc | rsc | cmp | cmn => exact h (arith _)

/-- The logical group leaves V alone (R172). -/
theorem v_dpOp_of_logical {op : DpOp} (hop : op ∈ [.and, .eor, .tst, .teq, .orr, .mov, .bic, .mvn]) (sf : Bool) (rn rd : Reg)
    (o : Bool × Word) (s : State) : (dpOp op sf rn rd o s).flags.v = s.flags.v := by
  have logic (sc res) : (setLogicFlags sf rd sc res s).flags.v = s.flags.v := by
    rw [flags_setLogicFlags]
    split <;> rfl
  cases op
  case and | eor | tst | teq | orr | mov | bic | mvn => exact logic _ _
  case sub | rsb | add | adc | sbc | rsc | cmp | cmn => exact absurd hop (by decide)

theorem flags_loadOp (i : Instr) (n : Width) (ix : Indexing) (rn rd : Reg) (off : Word) (s : State) :
    (loadOp i n ix rn rd off s).flags = s.flags := by
  obtain ⟨v, -, hl⟩ | ⟨-, hl⟩ := loadOp_cases i n ix rn rd off s
  · rw [hl, flags_writeBackBase, State.flags_setReg]
  · rw [hl, flags_raise]

theorem flags_storeOp (i : Instr) (n : Width) (ix : Indexing) (rn rd : Reg) (off : Word) (s : State) :
    (storeOp i n ix rn rd off s).flags = s.flags := by
  obtain ⟨t, hw, hs⟩ | ⟨-, hs⟩ := storeOp_cases i n ix rn rd off s
  · obtain ⟨-, ht, -⟩ := memWrite_eq_some hw
    rw [hs, flags_writeBackBase, ht, State.flags_setRam]
  · rw [hs, flags_raise]

/-- A long multiply leaves other flags only with S = 1 (R262). -/
theorem flags_longResult_ne {sf : Bool} {rdHi rdLo : Reg} {res : DWord} {s : State}
    (h : (longResult sf rdHi rdLo res s).flags ≠ s.flags) : sf = true := by
  by_contra hs
  exact h (if_neg hs)

/-- A long multiply leaves C and V alone (R262). -/
theorem c_v_longResult (sf : Bool) (rdHi rdLo : Reg) (res : DWord) (s : State) :
    (longResult sf rdHi rdLo res s).flags.c = s.flags.c ∧ (longResult sf rdHi rdLo res s).flags.v = s.flags.v := by
  cases sf <;> exact ⟨rfl, rfl⟩

/-! ## Every word -/

/-- What a word needs to leave other flags, its condition passing. -/
theorem flags_effectOf_ne {w : Word} {s : State} (h : (effectOf w s).flags ≠ s.flags) :
    bitAt w 20 = true ∧
    ((classify w = .dataProcessing ∧ field w 12 4 ≠ 15 ∧
      (DpOp.ofBits (field w 21 4) ∈ [.and, .eor, .tst, .teq, .orr, .mov, .bic, .mvn] →
        (effectOf w s).flags.v = s.flags.v)) ∨
     (classify w = .longMultiply ∧ (effectOf w s).flags.c = s.flags.c ∧ (effectOf w s).flags.v = s.flags.v)) := by
  cases hc : classify w <;> simp only [effectOf, hc] at h ⊢
  case dataProcessing =>
    obtain ⟨hs, hrd⟩ := flags_dpOp_ne h
    exact ⟨hs, .inl ⟨trivial, mt regAt_eq_pc.mpr hrd, fun hop => v_dpOp_of_logical hop ..⟩⟩
  case singleDataTransfer =>
    split at h
    · exact absurd (flags_loadOp ..) h
    · exact absurd (flags_storeOp ..) h
  case branch => exact absurd (by split <;> rfl) h
  case longMultiply => exact ⟨flags_longResult_ne h, .inr ⟨trivial, c_v_longResult ..⟩⟩
  all_goals exact absurd rfl h

/-- Settles O33: a word's effect, unit by unit, and a failing condition that changes nothing. -/
theorem flagWriters : Obligations.FlagWriters := by
  intro w s t he hflags
  rw [exec_decode] at he
  obtain ⟨hcond, rfl⟩ | ⟨-, rfl⟩ := guarded_cases he
  · exact ⟨hcond, flags_effectOf_ne hflags⟩
  · exact absurd rfl hflags

end Sys2Proof.Machine
end

section
/-! The words that the spec prints beside their assembly (`spec/47_fetch_execute.md` R321 to R323 and the examples of files 42
to 46). -/

namespace Sys2Proof

/-- Settles O5: each word, classified and decoded. -/
theorem specWords : Obligations.SpecWords := by
  refine ⟨?_, ?_, ?_, ?_, ?_, ?_, ?_, ?_, ?_⟩ <;> decide

end Sys2Proof
end

section
/-! The decode gaps of the multiply, swap, status, block, coprocessor, software-interrupt and undefined rows
(`spec/46_unimplemented.md` R280 to R286, R292 to R303). -/

namespace Sys2Proof.Machine
open Claims

/-! ## The words under the masks of their rows -/

section
variable {fixed : Word} (c : Cond)

theorem encodeSwap_and_mask (hf : fixed &&& 0x0FF00FF0 = fixed) (rn rd rm : Reg) :
    encodeSwap fixed c rn rd rm &&& 0x0FF00FF0 = fixed := by
  simpa (disch := decide) [encodeSwap, or_and_mask, place_and_mask] using hf

theorem encodeBlock_and_mask (hf : fixed &&& 0x0E100000 = fixed) (ix : Indexing) (psr : Bool) (rn : Reg)
    (list : BitVec 16) : encodeBlock fixed c ix psr rn list &&& 0x0E100000 = fixed := by
  simpa (disch := decide) [encodeBlock, Indexing.word, place1, or_and_mask, place_and_mask] using hf

theorem encodeCoprocTransfer_and_mask (hf : fixed &&& 0x0E100000 = fixed) (ix : Indexing) (n : Bool) (rn : Reg)
    (crd cp : BitVec 4) (off : BitVec 8) : encodeCoprocTransfer fixed c ix n rn crd cp off &&& 0x0E100000 = fixed := by
  simpa (disch := decide) [encodeCoprocTransfer, Indexing.word, place1, or_and_mask, place_and_mask] using hf

theorem encodeCoprocRegister_and_mask (hf : fixed &&& 0x0F100010 = fixed) (opc : BitVec 3) (crn : BitVec 4) (rd : Reg)
    (num : BitVec 4) (cp : BitVec 3) (crm : BitVec 4) :
    encodeCoprocRegister fixed c opc crn rd num cp crm &&& 0x0F100010 = fixed := by
  simpa (disch := decide) [encodeCoprocRegister, or_and_mask, place_and_mask] using hf

theorem matches_bx (rn : Reg) : Matches (.bx c rn) 0x0FFFFFF0 0x012FFF10 := by
  simp (disch := decide) [Matches, encode, or_and_mask, place_and_mask]

theorem matches_mrs (ps : Bool) (rd : Reg) : Matches (.mrs c ps rd) 0x0FBF0FFF 0x010F0000 := by
  simp (disch := decide) [Matches, encode, place1, or_and_mask, place_and_mask]

theorem matches_msr (pd : Bool) (rm : Reg) : Matches (.msr c pd rm) 0x0FBFFFF0 0x0129F000 := by
  simp (disch := decide) [Matches, encode, place1, or_and_mask, place_and_mask]

theorem matches_msrFlags (im pd : Bool) (operand : BitVec 12) :
    Matches (.msrFlags c im pd operand) 0x0DBFF000 0x0128F000 := by
  simp (disch := decide) [Matches, encode, place1, or_and_mask, place_and_mask]

theorem matches_cdp (opc crn crd num : BitVec 4) (cp : BitVec 3) (crm : BitVec 4) :
    Matches (.cdp c opc crn crd num cp crm) 0x0F000010 0x0E000000 := by
  simp (disch := decide) [Matches, encode, or_and_mask, place_and_mask]

theorem matches_swi (comment : BitVec 24) : Matches (.swi c comment) 0x0F000000 0x0F000000 := by
  simp (disch := decide) [Matches, encode, or_and_mask, place_and_mask]

theorem matches_undefined (hi : BitVec 20) (lo : BitVec 4) : Matches (.undefined c hi lo) 0x0E000010 0x06000010 := by
  simp (disch := decide) [Matches, encode, or_and_mask, place_and_mask]

end

/-! ## The gaps -/

/-- Settles O46: each word matches its row, and each effect is the decode gap. -/
theorem gapsOfMultiplySwapStatus : Obligations.GapsOfMultiplySwapStatus := fun c _ hc =>
  ⟨fun _ _ _ _ _ => ⟨encodeMultiply_and_mask rfl .., gaps_of_exec hc rfl⟩,
    fun _ _ _ _ _ => ⟨encodeMultiply_and_mask rfl .., gaps_of_exec hc rfl⟩,
    fun _ _ _ => ⟨encodeSwap_and_mask c rfl .., gaps_of_exec hc rfl⟩,
    fun _ _ _ => ⟨encodeSwap_and_mask c rfl .., gaps_of_exec hc rfl⟩,
    fun _ => ⟨matches_bx .., gaps_of_exec hc rfl⟩,
    fun _ _ => ⟨matches_mrs .., gaps_of_exec hc rfl⟩,
    fun _ _ => ⟨matches_msr .., gaps_of_exec hc rfl⟩,
    fun _ _ _ => ⟨matches_msrFlags .., gaps_of_exec hc rfl⟩⟩

/-- Settles O48: each word matches its row, and each effect is the decode gap. -/
theorem gapsOfBlockCoprocSwi : Obligations.GapsOfBlockCoprocSwi := fun c _ hc =>
  ⟨fun _ _ _ _ => ⟨encodeBlock_and_mask c rfl .., gaps_of_exec hc rfl⟩,
    fun _ _ _ _ => ⟨encodeBlock_and_mask c rfl .., gaps_of_exec hc rfl⟩,
    fun _ _ _ _ _ _ => ⟨encodeCoprocTransfer_and_mask c rfl .., gaps_of_exec hc rfl⟩,
    fun _ _ _ _ _ _ => ⟨encodeCoprocTransfer_and_mask c rfl .., gaps_of_exec hc rfl⟩,
    fun _ _ _ _ _ _ => ⟨matches_cdp .., gaps_of_exec hc rfl⟩,
    fun _ _ _ _ _ _ => ⟨encodeCoprocRegister_and_mask c rfl .., gaps_of_exec hc rfl⟩,
    fun _ _ _ _ _ _ => ⟨encodeCoprocRegister_and_mask c rfl .., gaps_of_exec hc rfl⟩,
    fun _ => ⟨matches_swi .., gaps_of_exec hc rfl⟩,
    fun _ _ => ⟨matches_undefined .., gaps_of_exec hc rfl⟩⟩

end Sys2Proof.Machine
end
